-- ==== Sys2Proof/Word.lean ====
section
/-! DEFINITION. The word types of the block: bits, bytes, operation words, and 16-cell words whose cells may be unknown. -/

namespace Sys2Proof

/-- One bit (00_scope.md R8): `false` is 0 and `true` is 1. -/
abbrev Bit := Bool

/-- `Bits8` of 00_scope.md R8. -/
abbrev Bits8 := BitVec 8

/-- `Bits16` of 00_scope.md R8. -/
abbrev Bits16 := BitVec 16

/-- The 24-bit operation word `op:A:B` of 30_encoding.md R75. -/
abbrev OpWord := BitVec 24

/-- One stage of the shift chain or of the storage register: "Each cell holds a bit or `unknown`"
(10_state.md R26, R27). -/
inductive Cell where
  | known (b : Bit)
  | unknown
deriving DecidableEq, Repr

/-- A 16-cell word, cell `i` at index `i` (10_state.md R26, R27, R31). -/
abbrev Cells16 := Vector Cell 16

end Sys2Proof
end

