-- ==== Sys2Proof/Syntax.lean ====
section
/-! DEFINITION. The operations of the block (one constructor per row of spec/opcode_table.json), the agents that issue them,
the two kinds of trace, and one entry of a trace. -/

namespace Sys2Proof

/-- The port events of 30_encoding.md R77. The operand types are exactly the fields of R76, so every term is an operation
the decoder admits. -/
inductive Instr where
  /-- SEGRD, 40_rom_lookup.md R100: look up digit value `d`. -/
  | segrd (d : BitVec 4)
  /-- SELRD, 40_rom_lookup.md R102: look up position `p`. -/
  | selrd (p : BitVec 2)
  /-- EMIT, 41_serial_sequencer.md R124: one whole transfer of `segments` and `digitSelect`. -/
  | emit (segments : Bits8) (digitSelect : Bits8)
  /-- PINW LATCH, 41_serial_sequencer.md R122. -/
  | pinwLatch (v : Bit)
  /-- PINW CLOCK, 41_serial_sequencer.md R122. -/
  | pinwClock (v : Bit)
  /-- PINW DATA, 41_serial_sequencer.md R122. -/
  | pinwData (v : Bit)
  /-- REFRESH, 42_tdm_scheduler.md R150. -/
  | refresh
  /-- RENDER, 42_tdm_scheduler.md R152, with the millivolt sample `mv`. -/
  | render (mv : Bits16)
  /-- SECTICK, 43_environment.md R180. -/
  | sectick
  /-- POLL, 43_environment.md R182, with reset-button level `r` and mode-button level `m`. -/
  | poll (r : Bit) (m : Bit)
deriving DecidableEq, Repr

/-- The agents that take steps (00_scope.md R12), with their prefix letters of 30_encoding.md R80. -/
inductive Agent where
  /-- L, the main loop. -/
  | mainLoop
  /-- R, the refresh interrupt source. -/
  | refreshIrq
  /-- T, the timekeeping interrupt source. -/
  | tickIrq
  /-- U, the unit test port. -/
  | unitPort
deriving DecidableEq, Repr

/-- The two kinds of trace (30_encoding.md R81). -/
inductive TraceKind where
  | unit
  | system
deriving DecidableEq, Repr

/-- One entry of a trace: an operation word tagged with its issuing agent (30_encoding.md R75). -/
structure TraceItem where
  agent : Agent
  word : OpWord
deriving DecidableEq, Repr

/-- DisplayMode (10_state.md R24). -/
inductive DisplayMode where
  | time
  | volt
deriving DecidableEq, Repr

/-- The main loop's position in its iteration (10_state.md R29). -/
inductive LPhase where
  | atPoll
  | atRender
deriving DecidableEq, Repr

/-- The three output wires (10_state.md R25). -/
inductive Pin where
  | latch
  | clock
  | data
deriving DecidableEq, Repr

end Sys2Proof
end

