-- ==== Sys2Proof/Decode.lean ====
section
/-! DEFINITION. The decoder of 30_encoding.md R76 to R79, total on every word, rejecting by name; then the encoder, the opcode
map as data, and the agent and trace kind of each operation. -/

namespace Sys2Proof

/-- Why a word is `Invalid` (30_encoding.md R78). -/
inductive Invalid where
  /-- The `op` byte is none of 0x01, 0x02, 0x03, 0x04, 0x10, 0x11, 0x20, 0x21. -/
  | unassignedOp
  /-- A bit is nonzero in a field the row fixes at 0. -/
  | fixedBits
  /-- PINW with `A` above 2. -/
  | noSuchPin
  /-- Fewer than the three bytes of an operation word are there. -/
  | truncated
deriving DecidableEq, Repr

/-- The `op` field, bits 23..16 (30_encoding.md R75). -/
def opField (w : OpWord) : Bits8 := w.extractLsb' 16 8

/-- The `A` field, bits 15..8 (30_encoding.md R75). -/
def aField (w : OpWord) : Bits8 := w.extractLsb' 8 8

/-- The `B` field, bits 7..0 (30_encoding.md R75). -/
def bField (w : OpWord) : Bits8 := w.extractLsb' 0 8

/-- PINW with pin number `A` and level byte `B` (30_encoding.md R76, R78). -/
def decodePinw (a b : Bits8) : Except Invalid Instr :=
  if b.extractLsb' 1 7 ≠ 0 then .error .fixedBits
  else if a = 0x00 then .ok (.pinwLatch (b.getLsbD 0))
  else if a = 0x01 then .ok (.pinwClock (b.getLsbD 0))
  else if a = 0x02 then .ok (.pinwData (b.getLsbD 0))
  else .error .noSuchPin

/-- The operation the three byte fields spell (30_encoding.md R76 to R78). -/
def decodeFields (op a b : Bits8) : Except Invalid Instr :=
  if op = 0x01 then
    if a.extractLsb' 4 4 = 0 ∧ b = 0 then .ok (.segrd (a.extractLsb' 0 4)) else .error .fixedBits
  else if op = 0x02 then
    if a.extractLsb' 2 6 = 0 ∧ b = 0 then .ok (.selrd (a.extractLsb' 0 2)) else .error .fixedBits
  else if op = 0x03 then .ok (.emit a b)
  else if op = 0x04 then decodePinw a b
  else if op = 0x10 then
    if a = 0 ∧ b = 0 then .ok .refresh else .error .fixedBits
  else if op = 0x11 then .ok (.render (a ++ b))
  else if op = 0x20 then
    if a = 0 ∧ b = 0 then .ok .sectick else .error .fixedBits
  else if op = 0x21 then
    if a.extractLsb' 2 6 = 0 ∧ b = 0 then .ok (.poll (a.getLsbD 1) (a.getLsbD 0)) else .error .fixedBits
  else .error .unassignedOp

/-- The decoder on a 24-bit operation word (30_encoding.md R79). -/
def decode (w : OpWord) : Except Invalid Instr :=
  decodeFields (opField w) (aField w) (bField w)

/-- The decoder on bytes, `op` first (30_encoding.md R75; log 25): "a decoder always reads exactly 3 bytes". The rest of
the bytes comes back with the operation. -/
def decodeBytes (bytes : List Bits8) : Except Invalid (Instr × List Bits8) :=
  match bytes with
  | op :: a :: b :: rest =>
    match decodeFields op a b with
    | .ok i => .ok (i, rest)
    | .error e => .error e
  | _ => .error .truncated

/-- The word with byte fields `op`, `A`, `B` (30_encoding.md R75). -/
def opWord (op a b : Bits8) : OpWord := op ++ a ++ b

/-- The operation word of an operation (30_encoding.md R77, R80). -/
def encode (i : Instr) : OpWord :=
  match i with
  | .segrd d => opWord 0x01 (0#4 ++ d) 0x00
  | .selrd p => opWord 0x02 (0#6 ++ p) 0x00
  | .emit s k => opWord 0x03 s k
  | .pinwLatch v => opWord 0x04 0x00 (0#7 ++ BitVec.ofBool v)
  | .pinwClock v => opWord 0x04 0x01 (0#7 ++ BitVec.ofBool v)
  | .pinwData v => opWord 0x04 0x02 (0#7 ++ BitVec.ofBool v)
  | .refresh => opWord 0x10 0x00 0x00
  | .render mv => opWord 0x11 (mv.extractLsb' 8 8) (mv.extractLsb' 0 8)
  | .sectick => opWord 0x20 0x00 0x00
  | .poll r m => opWord 0x21 (0#6 ++ BitVec.ofBool r ++ BitVec.ofBool m) 0x00

/-- The bytes of an operation word, `op` first (30_encoding.md R75). -/
def encodeBytes (i : Instr) : List Bits8 :=
  [opField (encode i), aField (encode i), bField (encode i)]

/-- The agent that issues each operation (30_encoding.md R77). -/
def Instr.agent (i : Instr) : Agent :=
  match i with
  | .segrd _ | .selrd _ | .emit _ _ | .pinwLatch _ | .pinwClock _ | .pinwData _ => .unitPort
  | .refresh => .refreshIrq
  | .sectick => .tickIrq
  | .render _ | .poll _ _ => .mainLoop

/-- The kind of trace each operation belongs to (30_encoding.md R81). -/
def Instr.traceKind (i : Instr) : TraceKind :=
  match i with
  | .segrd _ | .selrd _ | .emit _ _ | .pinwLatch _ | .pinwClock _ | .pinwData _ => .unit
  | .refresh | .sectick | .render _ | .poll _ _ => .system

/-- The main-loop phase at which each operation is enabled, none where it has no phase (30_encoding.md R82). -/
def Instr.phase (i : Instr) : Option LPhase :=
  match i with
  | .poll _ _ => some .atPoll
  | .render _ => some .atRender
  | .segrd _ | .selrd _ | .emit _ _ | .pinwLatch _ | .pinwClock _ | .pinwData _ | .refresh | .sectick => none

/-- The mnemonic of each operation, as spec/opcode_table.json spells it. -/
def Instr.mnemonic (i : Instr) : String :=
  match i with
  | .segrd _ => "SEGRD"
  | .selrd _ => "SELRD"
  | .emit _ _ => "EMIT"
  | .pinwLatch _ => "PINW_LATCH"
  | .pinwClock _ => "PINW_CLOCK"
  | .pinwData _ => "PINW_DATA"
  | .refresh => "REFRESH"
  | .render _ => "RENDER"
  | .sectick => "SECTICK"
  | .poll _ _ => "POLL"

/-- One row of the opcode map of 30_encoding.md R77: a word whose bits under `mask` equal `pattern` is the row's
operation. -/
structure OpcodeRow where
  mnemonic : String
  pattern : OpWord
  mask : OpWord
  agent : Agent
deriving DecidableEq, Repr

/-- The word matches the row (30_encoding.md R77). -/
def OpcodeRow.matchesWord (r : OpcodeRow) (w : OpWord) : Bool := w &&& r.mask == r.pattern

/-- The row of each operation in the opcode map of 30_encoding.md R77. -/
def Instr.row (i : Instr) : OpcodeRow :=
  match i with
  | .segrd _ => ⟨"SEGRD", 0x010000, 0xFFF0FF, .unitPort⟩
  | .selrd _ => ⟨"SELRD", 0x020000, 0xFFFCFF, .unitPort⟩
  | .emit _ _ => ⟨"EMIT", 0x030000, 0xFF0000, .unitPort⟩
  | .pinwLatch _ => ⟨"PINW_LATCH", 0x040000, 0xFFFFFE, .unitPort⟩
  | .pinwClock _ => ⟨"PINW_CLOCK", 0x040100, 0xFFFFFE, .unitPort⟩
  | .pinwData _ => ⟨"PINW_DATA", 0x040200, 0xFFFFFE, .unitPort⟩
  | .refresh => ⟨"REFRESH", 0x100000, 0xFFFFFF, .refreshIrq⟩
  | .render _ => ⟨"RENDER", 0x110000, 0xFF0000, .mainLoop⟩
  | .sectick => ⟨"SECTICK", 0x200000, 0xFFFFFF, .tickIrq⟩
  | .poll _ _ => ⟨"POLL", 0x210000, 0xFFFCFF, .mainLoop⟩

/-- The opcode map of 30_encoding.md R77, row by row. -/
def opcodeTable : List OpcodeRow :=
  [Instr.row (.segrd 0), Instr.row (.selrd 0), Instr.row (.emit 0 0), Instr.row (.pinwLatch false),
    Instr.row (.pinwClock false), Instr.row (.pinwData false), Instr.row .refresh, Instr.row (.render 0),
    Instr.row .sectick, Instr.row (.poll false false)]

/-- The instruction the decoder reads from a table word of `nbits` bits: the bits above `nbits` are 0, and the word is the
24-bit operation word whose bit 0 is the table's bit 0 (spec/98_reader.md). A number with a bit above bit 23 is no
operation word. -/
def decodeTableWord (nbits w : Nat) : Option Instr :=
  let v := w % 2 ^ nbits
  if v < 2 ^ 24 then
    match decode (BitVec.ofNat 24 v) with
    | .ok i => some i
    | .error _ => none
  else none

end Sys2Proof
end

