-- ==== Sys2Proof/Config.lean ====
section
/-! DEFINITION. The implementation parameters of 00_scope.md R6: those the source fixes are constants, those the spec leaves
to a parameter set are the fields of `Params`, and the OPEN one is an opaque constant. -/

namespace Sys2Proof

/-- The seven segment names of 30_encoding.md R70. -/
inductive Segment where
  | a | b | c | d | e | f | g
deriving DecidableEq, Repr

/-- `SEG_BIT : segment name → Fin 8` of 00_scope.md R6, as plain data: the bit of a segment pattern that drives each segment. -/
structure SegBits where
  a : Fin 8
  b : Fin 8
  c : Fin 8
  d : Fin 8
  e : Fin 8
  f : Fin 8
  g : Fin 8
deriving DecidableEq, Repr

/-- The bit that drives segment `x`. -/
def SegBits.get (t : SegBits) (x : Segment) : Fin 8 :=
  match x with
  | .a => t.a
  | .b => t.b
  | .c => t.c
  | .d => t.d
  | .e => t.e
  | .f => t.f
  | .g => t.g

/-- The parameters of 00_scope.md R6 that a claim may quantify over. The record stands in State, so that a statement
about every state is a statement about every parameter set. No operation writes it (10_state.md R33). -/
structure Params where
  /-- `SEG_TABLE`: word d of `SEG_ROM` (10_state.md R20). -/
  segTable : Vector Bits8 10
  /-- `SEG_BIT`. -/
  segBit : SegBits
  /-- `IND_BIT`: the indicator bit of a segment pattern. -/
  indBit : Fin 8
  /-- `SEL_TABLE`: word p of `SEL_ROM` (10_state.md R21). -/
  selTable : Vector Bits8 4
  /-- `DIGIT_LINE`: the select bit that enables each position. -/
  digitLine : Vector (Fin 8) 4
  /-- `DIGIT_LINE_MASK`. -/
  digitLineMask : Bits8
  /-- `PREV_RESET_INIT`. -/
  prevResetInit : Bit
deriving DecidableEq, Repr

/-- The default parameter set of 00_scope.md R6.
UNVERIFIED, unsafe for claims about concrete bytes: the spec chose these values from general knowledge (D1 to D4, D15,
I2; log 6, 7, 8, 9). -/
def Params.default : Params where
  segTable := #v[0xC0, 0xF9, 0xA4, 0xB0, 0x99, 0x92, 0x82, 0xF8, 0x80, 0x90]
  segBit := { a := 0, b := 1, c := 2, d := 3, e := 4, f := 5, g := 6 }
  indBit := 7
  selTable := #v[0xFE, 0xFD, 0xFB, 0xF7]
  digitLine := #v[0, 1, 2, 3]
  digitLineMask := 0x0F
  prevResetInit := true

namespace Config

/-- `N_DIGITS` (00_scope.md R6, source): the length of `SEL_TABLE` and `DIGIT_LINE`. -/
def nDigits : Nat := 4
/-- `N_VALUES` (00_scope.md R6, source): the length of `SEG_TABLE`. -/
def nValues : Nat := 10
/-- `SEG_ADDR_W` (00_scope.md R6, D6): the width of a `SEG` address. -/
def segAddrW : Nat := 4
/-- `SEL_ADDR_W` (00_scope.md R6, D6): the width of a `SEL` address. -/
def selAddrW : Nat := 2
/-- `EMIT_W` (00_scope.md R6, source): the width of an emit word. -/
def emitW : Nat := 16
/-- `IND_POS_TIME` (00_scope.md R6, source; 90_conflicts.md C1). -/
def indPosTime : Fin 4 := 1
/-- `IND_POS_VOLT` (00_scope.md R6, source; 90_conflicts.md C1). -/
def indPosVolt : Fin 4 := 0
/-- `SEC_MOD` (00_scope.md R6, source). -/
def secMod : Nat := 6000
/-- `MV_MAX` (00_scope.md R6, source). -/
def mvMax : Nat := 9999
/-- `VREF_V` (00_scope.md R6, source): 3.3 volts. No rule of the block reads it (00_scope.md R5). -/
def vrefV : Rat := 33 / 10
/-- `SECONDS_W` (00_scope.md R6, D7): the width of the `seconds` port. -/
def secondsW : Nat := 13
/-- `MV_W` (00_scope.md R6, D7): the width of the `mv` port. -/
def mvW : Nat := 14
/-- `REFRESH_PERIOD` in milliseconds (00_scope.md R6, source). Timing only: no rule reads it (70_reset_and_hazards.md R246). -/
def refreshPeriodMs : Nat := 2
/-- `TICK_PERIOD` in milliseconds (00_scope.md R6, source). Timing only: no rule reads it (70_reset_and_hazards.md R246). -/
def tickPeriodMs : Nat := 1000

/-- A normalised analog sample, "in [0,1]" (43_environment.md R185). -/
abbrev Sample := Set.Icc (0 : ℝ) 1

/-- `MV_CONV : [0,1] → Nat` (00_scope.md R6), OPEN by D19: the spec gives no default, so nothing is known of it here
(log 19, safe). -/
opaque mvConv : Sample → Nat

end Config

end Sys2Proof
end

