-- ==== Sys2Proof/WellFormed.lean ====
section
/-! DEFINITION. The checks of 00_scope.md R7 on a parameter set. An instruction needs no check of its own: the operand types of
`Instr` are exactly the fields 30_encoding.md R76 admits, so every term of `Instr` is well-formed. -/

namespace Sys2Proof

/-- The names of the checks of 00_scope.md R7, recorded by the refusal `BadParams`. -/
inductive ParamCheck where
  | oneDigit
  | distinctLines
  | indFree
deriving DecidableEq, Repr

/-- `ONE_DIGIT` (00_scope.md R7 (a)): under active-low wiring the selector pattern for each position enables exactly that
position's own digit line. -/
def Params.oneDigit (P : Params) : Bool :=
  (List.finRange 4).all fun p =>
    P.selTable[p] &&& P.digitLineMask == P.digitLineMask &&& ~~~(1#8 <<< P.digitLine[p].val)

/-- `DISTINCT_LINES` (00_scope.md R7 (b)): `DIGIT_LINE` is injective and every line is a set bit of `DIGIT_LINE_MASK`. -/
def Params.distinctLines (P : Params) : Bool :=
  ((List.finRange 4).all fun p => (List.finRange 4).all fun q => P.digitLine[p] != P.digitLine[q] || p == q) &&
    (List.finRange 4).all fun p => P.digitLineMask.getLsbD P.digitLine[p].val

/-- `IND_FREE` (00_scope.md R7 (c)): `IND_BIT` is not the bit of any of the segments a..g. -/
def Params.indFree (P : Params) : Bool :=
  [Segment.a, .b, .c, .d, .e, .f, .g].all fun x => P.segBit.get x != P.indBit

/-- The first check of 00_scope.md R7 that a parameter set fails, if any. -/
def Params.failedCheck (P : Params) : Option ParamCheck :=
  if P.oneDigit = false then some .oneDigit
  else if P.distinctLines = false then some .distinctLines
  else if P.indFree = false then some .indFree
  else none

/-- A parameter set is well-formed when it passes every check of 00_scope.md R7. -/
def Params.wf (P : Params) : Bool :=
  P.oneDigit && P.distinctLines && P.indFree

end Sys2Proof
end

