-- ==== Sys2Proof/Machine/State.lean ====
section
/-! DEFINITION. The machine's state as plain data (10_state.md R20 to R34), the reasons a step can stop (60_exceptions.md
R200), and the state after reset (70_reset_and_hazards.md R230). -/

namespace Sys2Proof.Machine

/-- One entry of the sticky set `faults` (10_state.md R31): a fault kind with the info it records (60_exceptions.md R200). -/
inductive FaultEntry where
  | segAddrRange (d : BitVec 4)
  | clockNotIdle (level : Bit)
  | mvRange (mv : Bits16)
  | secondsRange (seconds : Nat)
deriving DecidableEq, Repr

/-- Everything the spec gives the machine (10_state.md), the parameter set of 00_scope.md R6, and the model's own record of
the trace and of the values lookups returned. -/
structure State where
  /-- The parameter set, the contents of the two ROMs among it (10_state.md R20, R21, R33). No operation writes it. -/
  params : Params
  /-- RefreshPending (10_state.md R22). -/
  pending : Bool
  /-- CurrentDigitIndex (10_state.md R23). -/
  idx : Fin 4
  /-- DisplayMode (10_state.md R24). -/
  mode : DisplayMode
  /-- The wire LATCH (10_state.md R25). -/
  latch : Bit
  /-- The wire CLOCK (10_state.md R25). -/
  clock : Bit
  /-- The wire DATA (10_state.md R25). -/
  data : Bit
  /-- `S`, the shift chain: cells 15..8 the downstream register, cells 7..0 the upstream one (10_state.md R26). -/
  shiftChain : Cells16
  /-- `O`, the storage register that drives the display (10_state.md R27). -/
  storage : Cells16
  /-- The main loop's phase, the analogue of a program counter (10_state.md R29). -/
  lphase : LPhase
  /-- ElapsedSeconds, a natural carried on a 13-bit port (10_state.md R30; log 14). -/
  seconds : Nat
  /-- The previous iteration's reset-button level (10_state.md R30). -/
  prevReset : Bit
  /-- The words committed so far, oldest first (10_state.md R31). -/
  commits : List Cells16
  /-- The sticky set of faults, in rising order with no repeats (10_state.md R31; log 13). -/
  faults : List FaultEntry
  /-- The sticky mark of a refusal (10_state.md R31). -/
  refused : Bool
  /-- DESIGN CHOICE (log 11): the values SEGRD and SELRD steps returned, oldest first (40_rom_lookup.md R100, R102). -/
  returns : List Bits8
  /-- DESIGN CHOICE (log 3): the kind of the trace (30_encoding.md R81). -/
  traceKind : TraceKind
  /-- DESIGN CHOICE (log 1): the rest of the trace, the next operation word first (30_encoding.md R75). It carries the
  interleaving of the agents (00_scope.md R12). -/
  trace : List TraceItem
deriving DecidableEq, Repr

/-- The faults of 60_exceptions.md R200, each with the info recorded and the faulted state it leaves (log 12). -/
inductive Fault where
  /-- SEGRD with d in 10..15, where no ROM word is mapped (60_exceptions.md R201). Safe: the hardware would return some byte. -/
  | segAddrRange (d : BitVec 4) (after : State)
  /-- EMIT, or RENDER's EMIT, started with CLOCK = 1 (60_exceptions.md R202). Safe: it stands for the outcome of R131. -/
  | clockNotIdle (level : Bit) (after : State)
  /-- RENDER with mv above 9999 (60_exceptions.md R203). Safe: such a sample is outside the block's contract. -/
  | mvRange (mv : Bits16) (after : State)
  /-- RENDER with seconds above 5999 (60_exceptions.md R204). Safe: no run from reset reaches it. -/
  | secondsRange (seconds : Nat) (after : State)
deriving DecidableEq, Repr

/-- The refusals of 60_exceptions.md R200, each with what it records and the refused state it leaves (log 12). -/
inductive Refusal where
  /-- Raised by `exec` for an instruction the model gives no meaning yet. Safe. No instruction is left so. -/
  | notModelled (mnemonic : String)
  /-- Raised by `step` for a word that decodes to no operation (30_encoding.md R78). Safe. -/
  | undecodable (word : OpWord) (after : State)
  /-- Raised by `step` for an operation outside its trace kind (30_encoding.md R81). Safe. -/
  | wrongTraceKind (word : OpWord) (after : State)
  /-- Raised by `step` for a POLL at AtRender or a RENDER at AtPoll (30_encoding.md R82). Safe. -/
  | outOfPhase (word : OpWord) (after : State)
  /-- Raised by `step` for a parameter set that fails a check of 00_scope.md R7. Safe. -/
  | badParams (check : ParamCheck) (after : State)
deriving DecidableEq, Repr

/-- The outcome of one step of this machine (00_scope.md R11). -/
abbrev StepOutcome := Host.Outcome State Fault Refusal

/-- The reset state of 70_reset_and_hazards.md R230 under a parameter set, with an empty trace. The values are the spec's
decision D15 (log 9, 10), those of `returns`, `traceKind` and `trace` the model's (log 1, 3, 11). -/
def State.resetWith (P : Params) : State where
  params := P
  pending := false
  idx := 0
  mode := .time
  latch := false
  clock := false
  data := false
  shiftChain := Vector.replicate 16 .unknown
  storage := Vector.replicate 16 .unknown
  lphase := .atPoll
  seconds := 0
  prevReset := P.prevResetInit
  commits := []
  faults := []
  refused := false
  returns := []
  traceKind := .system
  trace := []

/-- The machine right after reset (70_reset_and_hazards.md R230), at the default parameter set. -/
def State.reset : State := State.resetWith Params.default

end Sys2Proof.Machine
end

