-- ==== Sys2Proof/Machine/Ops.lean ====
section
/-! DEFINITION. The named operations over State that the meanings share: the writes of each element, the two ROM reads, raising
a fault and refusing, the wire writes and the device's edges, and which step of a trace is enabled. -/

namespace Sys2Proof.Machine

/-! ### Writes of single elements -/

/-- `lphase <- l` (10_state.md R29). -/
def setPhase (l : LPhase) (s : State) : State := { s with lphase := l }

/-- `idx <- p` (10_state.md R23). -/
def setIdx (p : Fin 4) (s : State) : State := { s with idx := p }

/-- `mode <- m` (10_state.md R24). -/
def setMode (m : DisplayMode) (s : State) : State := { s with mode := m }

/-- `seconds <- n` (10_state.md R30). -/
def setSeconds (n : Nat) (s : State) : State := { s with seconds := n }

/-- `prevReset <- r` (10_state.md R30). -/
def setPrevReset (r : Bit) (s : State) : State := { s with prevReset := r }

/-- `S <- c` (10_state.md R26). -/
def setShift (c : Cells16) (s : State) : State := { s with shiftChain := c }

/-- `O <- c`, then `commit(c)`: the display takes the word and the observation gains it (10_state.md R27, R31;
00_scope.md R10). -/
def commitWord (c : Cells16) (s : State) : State := { s with storage := c, commits := s.commits ++ [c] }

/-- The step returns the byte `b` (40_rom_lookup.md R100, R102; log 11). -/
def returnByte (b : Bits8) (s : State) : State := { s with returns := s.returns ++ [b] }

/-! ### The two read-only address spaces -/

/-- `MemRead(SEG, a, 1)` (20_memory.md R51): the word of `SEG_TABLE`, none where the address is unmapped. -/
def memReadSeg (s : State) (a : BitVec 4) : Option Bits8 :=
  if h : a.toNat ≤ 9 then some (s.params.segTable[a.toNat]'(by omega)) else none

/-- `MemRead(SEL, p, 1)` (20_memory.md R51): every 2-bit address is mapped. -/
def memReadSel (s : State) (p : BitVec 2) : Bits8 :=
  s.params.selTable[p.toNat]'(p.isLt)

/-- An address space written out as its mapped cells. -/
abbrev Memory := List Host.Cell

/-- The canonical form of a memory: addresses strictly rising. An unlisted address has no value (20_memory.md R50), so no
entry can equal what an unlisted address reads as. -/
def Memory.wf (m : Memory) : Bool :=
  match m with
  | [] => true
  | [_] => true
  | x :: y :: rest => decide (x.1 < y.1) && Memory.wf (y :: rest)

/-- The byte at an address of a written-out memory, none where nothing is mapped. -/
def Memory.read (m : Memory) (a : Nat) : Option Bits8 :=
  match m with
  | [] => none
  | x :: rest => if x.1 = a then some x.2 else Memory.read rest a

/-- The address space `SEG` written out (20_memory.md R50, R57; log 15). -/
def segMemory (s : State) : Memory := (List.range 10).zip s.params.segTable.toList

/-- The address space `SEL` written out (20_memory.md R50, R57; log 15). -/
def selMemory (s : State) : Memory := (List.range 4).zip s.params.selTable.toList

/-! ### Faults and refusals: the one shared way a step stops -/

/-- The code of a fault kind (60_exceptions.md R200). -/
def FaultEntry.code (e : FaultEntry) : Nat :=
  match e with
  | .segAddrRange _ => 1
  | .clockNotIdle _ => 2
  | .mvRange _ => 3
  | .secondsRange _ => 4

/-- The info a fault records, as a number (60_exceptions.md R200). -/
def FaultEntry.info (e : FaultEntry) : Nat :=
  match e with
  | .segAddrRange d => d.toNat
  | .clockNotIdle v => v.toNat
  | .mvRange mv => mv.toNat
  | .secondsRange n => n

/-- The order in which the set `faults` is listed: by code, then by info (log 13). -/
def FaultEntry.lt (e f : FaultEntry) : Bool :=
  decide (e.code < f.code) || (e.code == f.code && decide (e.info < f.info))

/-- The set with one more entry, kept in rising order with no repeats (log 13). -/
def insertFault (e : FaultEntry) (l : List FaultEntry) : List FaultEntry :=
  match l with
  | [] => [e]
  | f :: rest => if e = f then f :: rest else if e.lt f then e :: f :: rest else f :: insertFault e rest

/-- The listing of a set of faults is in rising order with no repeats (log 13). -/
def faultsWf (l : List FaultEntry) : Bool :=
  match l with
  | [] => true
  | [_] => true
  | e :: f :: rest => e.lt f && faultsWf (f :: rest)

/-- "A fault writes its kind and info into `faults`" (60_exceptions.md R205). -/
def recordFault (e : FaultEntry) (s : State) : State := { s with faults := insertFault e s.faults }

/-- The fault that reports an entry and leaves the given state. -/
def FaultEntry.toFault (e : FaultEntry) (after : State) : Fault :=
  match e with
  | .segAddrRange d => .segAddrRange d after
  | .clockNotIdle v => .clockNotIdle v after
  | .mvRange mv => .mvRange mv after
  | .secondsRange n => .secondsRange n after

/-- `raise Fault(kind, info)` (00_scope.md R10, R11): the step ends, and the faulted state is the state so far with the
entry recorded. No handler, vector, cause register or saved state exists (60_exceptions.md R205). -/
def raise (e : FaultEntry) (s : State) : StepOutcome := .fault (e.toFault (recordFault e s))

/-- The entry a fault reports. -/
def Fault.entry (f : Fault) : FaultEntry :=
  match f with
  | .segAddrRange d _ => .segAddrRange d
  | .clockNotIdle v _ => .clockNotIdle v
  | .mvRange mv _ => .mvRange mv
  | .secondsRange n _ => .secondsRange n

/-- The faulted state a fault leaves (00_scope.md R11). -/
def Fault.after (f : Fault) : State :=
  match f with
  | .segAddrRange _ t => t
  | .clockNotIdle _ t => t
  | .mvRange _ t => t
  | .secondsRange _ t => t

/-- The mark `refused` is set (60_exceptions.md R205). -/
def markRefused (s : State) : State := { s with refused := true }

/-- `refuse(reason)` (00_scope.md R10, R11): the step ends, and the refused state is the state so far with the mark set. -/
def refuse (reason : State → Refusal) (s : State) : StepOutcome := .refused (reason (markRefused s))

/-- The refused state a refusal leaves, where the step began at `s` (00_scope.md R11). -/
def Refusal.after (r : Refusal) (s : State) : State :=
  match r with
  | .undecodable _ t => t
  | .wrongTraceKind _ t => t
  | .outOfPhase _ t => t
  | .badParams _ t => t
  | _ => markRefused s

/-- The code of a refusal, where the spec gives one (60_exceptions.md R200). -/
def Refusal.code (r : Refusal) : Option Nat :=
  match r with
  | .undecodable _ _ => some 16
  | .wrongTraceKind _ _ => some 17
  | .outOfPhase _ _ => some 18
  | .badParams _ _ => some 19
  | _ => none

/-! ### The serial output sequencer and the receiving device -/

/-- A known 16-bit word as 16 cells. -/
def ofBits (w : Bits16) : Cells16 := Vector.ofFn fun i => .known (w.getLsbD i.val)

/-- The emit word `{segments, digitSelect}` (30_encoding.md R72). -/
def emitWord (segments digitSelect : Bits8) : Bits16 := segments ++ digitSelect

/-- `{chain[14:0], bit}`: every cell moves one stage up and the bit enters at cell 0 (41_serial_sequencer.md R126). -/
def shiftIn (chain : Cells16) (bit : Bit) : Cells16 :=
  Vector.ofFn fun i => if i.val = 0 then .known bit else chain[i.val - 1]

/-- The level of a wire (10_state.md R25). -/
def pinLevel (n : Pin) (s : State) : Bit :=
  match n with
  | .latch => s.latch
  | .clock => s.clock
  | .data => s.data

/-- `pin(n) <- v` (00_scope.md R10). -/
def setPin (n : Pin) (v : Bit) (s : State) : State :=
  match n with
  | .latch => { s with latch := v }
  | .clock => { s with clock := v }
  | .data => { s with data := v }

/-- `ShiftEdge()`, the device at a rising edge of CLOCK (41_serial_sequencer.md R126; UNVERIFIED: the spec's decision D9, log 16). -/
def shiftEdge (s : State) : State := setShift (shiftIn s.shiftChain s.data) s

/-- `LatchEdge()`, the device at a rising edge of LATCH (41_serial_sequencer.md R127; UNVERIFIED: the spec's decision D9, log 16). -/
def latchEdge (s : State) : State := commitWord s.shiftChain s

/-- What the device does at a rising edge of a wire: DATA has no effect of its own (41_serial_sequencer.md R122). -/
def risingEdge (n : Pin) (s : State) : State :=
  match n with
  | .latch => latchEdge s
  | .clock => shiftEdge s
  | .data => s

/-- PINW, one wire write (41_serial_sequencer.md R122). -/
def pinWrite (n : Pin) (v : Bit) (s : State) : State :=
  if pinLevel n s = false ∧ v = true then risingEdge n (setPin n v s) else setPin n v s

/-- EMIT, one whole transfer (41_serial_sequencer.md R124). -/
def emitOp (segments digitSelect : Bits8) (s : State) : StepOutcome :=
  if s.clock = true then raise (.clockNotIdle s.clock) s
  else
    let E := emitWord segments digitSelect
    .next (setPin .data (E.getLsbD 0) (setPin .clock false (setPin .latch true
      (commitWord (ofBits E) (setShift (ofBits E) s)))))

/-! ### Which step of a trace is enabled -/

/-- The operation, issued by this agent, belongs to this kind of trace (30_encoding.md R77, R81; log 4). -/
def admittedIn (k : TraceKind) (a : Agent) (i : Instr) : Bool := i.agent == a && i.traceKind == k

/-- The operation is enabled at this main-loop phase (30_encoding.md R82). -/
def inPhase (l : LPhase) (i : Instr) : Bool :=
  match i.phase with
  | none => true
  | some l' => l' == l

/-- The rest of the trace is `t`. -/
def setTrace (t : List TraceItem) (s : State) : State := { s with trace := t }

/-- The trace item of an operation, issued by its own agent (30_encoding.md R77, R80). -/
def itemOf (i : Instr) : TraceItem := ⟨i.agent, encode i⟩

/-- The machine with a trace of this kind given to it from outside (30_encoding.md R81; log 1). -/
def loadTrace (k : TraceKind) (t : List TraceItem) (s : State) : State := { s with traceKind := k, trace := t }

/-- The state in which the next step runs this word: it heads the trace, and where it decodes its own agent issues it, the
trace is of its kind, and the main loop stands at its phase (30_encoding.md R77, R81, R82; log 1). -/
def placeWord (w : OpWord) (s : State) : State :=
  match decode w with
  | .ok i => { s with
      traceKind := i.traceKind
      lphase := i.phase.getD s.lphase
      trace := ⟨i.agent, w⟩ :: s.trace }
  | .error _ => { s with trace := ⟨.unitPort, w⟩ :: s.trace }

/-- A reset at any time "discards all state and re-applies rule R230" (70_reset_and_hazards.md R236). The parameters are
constants, and the trace is the outside world's, so both stay (log 26). -/
def applyReset (s : State) : State := loadTrace s.traceKind s.trace (State.resetWith s.params)

end Sys2Proof.Machine
end

