-- ==== Sys2Proof/Machine/Operands.lean ====
section
/-! DEFINITION. The combinational functions that form a step's values: the digit dispatch, the indicator bit, the operand of
POLL, and the environment's clamp. -/

namespace Sys2Proof.Machine

/-- `decompose(m)`: integer volts and fractional millivolts (43_environment.md R187). -/
def decompose (m : Nat) : Nat × Nat := (m / 1000, m % 1000)

/-- `clamp(m) = min(m, 9999)` (43_environment.md R186). -/
def clampMv (m : Nat) : Nat := min m Config.mvMax

/-- The millivolt sample the environment gives a RENDER (43_environment.md R185), under the OPEN conversion. -/
def sampleMv (x : Config.Sample) : Nat := clampMv (Config.mvConv x)

/-- `DigitValue(TIME, p, seconds, mv)` (42_tdm_scheduler.md R151). -/
def timeDigit (p : Fin 4) (seconds : Nat) : Nat :=
  let mins := seconds / 60
  let secs := seconds % 60
  match p with
  | 0 => mins / 10
  | 1 => mins % 10
  | 2 => secs / 10
  | 3 => secs % 10

/-- `DigitValue(VOLT, p, seconds, mv)` (42_tdm_scheduler.md R151). -/
def voltDigit (p : Fin 4) (mv : Nat) : Nat :=
  let ip := (decompose mv).1
  let fr := (decompose mv).2
  match p with
  | 0 => ip
  | 1 => fr / 100
  | 2 => fr % 100 / 10
  | 3 => fr % 10

/-- `DigitValue(mode, p, seconds, mv)`, the 4-way dispatch (42_tdm_scheduler.md R151, R153). -/
def digitValue (mode : DisplayMode) (p : Fin 4) (seconds mv : Nat) : Nat :=
  match mode with
  | .time => timeDigit p seconds
  | .volt => voltDigit p mv

/-- `IndAt(mode, p)` (42_tdm_scheduler.md R155). -/
def indAt (mode : DisplayMode) (p : Fin 4) : Bool :=
  match mode with
  | .time => p == Config.indPosTime
  | .volt => p == Config.indPosVolt

/-- `withInd(pat)`: the bit `IND_BIT` is cleared (40_rom_lookup.md R104). -/
def withInd (P : Params) (pat : Bits8) : Bits8 := pat &&& ~~~(1#8 <<< P.indBit.val)

/-- `pat_p`, the segment pattern shown for a digit's stored pattern (42_tdm_scheduler.md R152, R157). -/
def shownPattern (P : Params) (mode : DisplayMode) (p : Fin 4) (pat : Bits8) : Bits8 :=
  if indAt mode p then withInd P pat else pat

/-- `E_p`, the word a frame commits for position `p` when its digit's stored pattern is `stored` (42_tdm_scheduler.md R157). -/
def frameWord (P : Params) (mode : DisplayMode) (p : Fin 4) (stored : Bits8) : Bits16 :=
  emitWord (shownPattern P mode p stored) P.selTable[p]

/-- `(p + 1) mod 4` (42_tdm_scheduler.md R152). -/
def nextIdx (p : Fin 4) : Fin 4 := ⟨(p.val + 1) % 4, Nat.mod_lt _ (by decide)⟩

/-- The mode a mode-button level selects: 0 is held, VOLT (43_environment.md R182). -/
def modeOfLevel (m : Bit) : DisplayMode := if m = false then .volt else .time

/-- The counter's next value (43_environment.md R180). -/
def tickSeconds (n : Nat) : Nat := if n = Config.secMod - 1 then 0 else n + 1

end Sys2Proof.Machine
end

