-- ==== Sys2Proof/Machine/Flags.lean ====
section
/-! DEFINITION. The block's only flag, `pending` (10_state.md R22): its set, its clear, and the reset-edge condition. -/

namespace Sys2Proof.Machine

/-- `pending <- 1` (42_tdm_scheduler.md R150). -/
def setPending (s : State) : State := { s with pending := true }

/-- `pending <- 0` (42_tdm_scheduler.md R152). -/
def clearPending (s : State) : State := { s with pending := false }

/-- A falling edge of the reset button: unpressed (1) at the previous poll, pressed (0) now (43_environment.md R182). -/
def resetEdge (prev r : Bit) : Bool := prev && !r

end Sys2Proof.Machine
end

