-- ==== Sys2Proof/Machine/Environment.lean ====
section
/-! DEFINITION. The environment's operations SECTICK and POLL (43_environment.md). -/

namespace Sys2Proof.Machine

/-- SECTICK (43_environment.md R180). -/
def execSectick (s : State) : StepOutcome := .next (setSeconds (tickSeconds s.seconds) s)

/-- POLL (43_environment.md R182). -/
def execPoll (r m : Bit) (s : State) : StepOutcome :=
  let t := if resetEdge s.prevReset r then setSeconds 0 s else s
  .next (setPhase .atRender (setMode (modeOfLevel m) (setPrevReset r t)))

end Sys2Proof.Machine
end

