-- ==== Sys2Proof/Machine/Lookup.lean ====
section
/-! DEFINITION. The lookup ROM operations SEGRD and SELRD (40_rom_lookup.md). -/

namespace Sys2Proof.Machine

/-- SEGRD (40_rom_lookup.md R100): the step returns `SEG_TABLE[d]`, and an unmapped address faults. -/
def execSegrd (d : BitVec 4) (s : State) : StepOutcome :=
  match memReadSeg s d with
  | some b => .next (returnByte b s)
  | none => raise (.segAddrRange d) s

/-- SELRD (40_rom_lookup.md R102): the step returns `SEL_TABLE[p]`. -/
def execSelrd (p : BitVec 2) (s : State) : StepOutcome := .next (returnByte (memReadSel s p) s)

end Sys2Proof.Machine
end

