-- ==== Sys2Proof/Machine/Serial.lean ====
section
/-! DEFINITION. The serial output sequencer's operations EMIT and PINW (41_serial_sequencer.md). -/

namespace Sys2Proof.Machine

/-- EMIT (41_serial_sequencer.md R124). -/
def execEmit (segments digitSelect : Bits8) (s : State) : StepOutcome := emitOp segments digitSelect s

/-- PINW LATCH (41_serial_sequencer.md R122). -/
def execPinwLatch (v : Bit) (s : State) : StepOutcome := .next (pinWrite .latch v s)

/-- PINW CLOCK (41_serial_sequencer.md R122). -/
def execPinwClock (v : Bit) (s : State) : StepOutcome := .next (pinWrite .clock v s)

/-- PINW DATA (41_serial_sequencer.md R122). -/
def execPinwData (v : Bit) (s : State) : StepOutcome := .next (pinWrite .data v s)

end Sys2Proof.Machine
end

