-- ==== Sys2Proof/Machine/Tdm.lean ====
section
/-! DEFINITION. The time-division multiplexer's operations REFRESH and RENDER (42_tdm_scheduler.md). -/

namespace Sys2Proof.Machine

/-- REFRESH (42_tdm_scheduler.md R150). -/
def execRefresh (s : State) : StepOutcome := .next (setPending s)

/-- The part of RENDER that consumes a refresh, after `pending` was cleared (42_tdm_scheduler.md R152, from `p <- idx` on). -/
def renderDigit (mv : Bits16) (s : State) : StepOutcome :=
  let a := BitVec.ofNat 4 (digitValue s.mode s.idx s.seconds mv.toNat)
  match memReadSeg s a with
  | none => raise (.segAddrRange a) s
  | some pat =>
    match emitOp (shownPattern s.params s.mode s.idx pat) (memReadSel s (BitVec.ofFin s.idx)) s with
    | .next t => .next (setIdx (nextIdx s.idx) t)
    | .fault f => .fault f
    | .refused r => .refused r

/-- RENDER (42_tdm_scheduler.md R152). The range checks come before any write (60_exceptions.md R203, R204), and a fault of
the emit keeps the writes of `lphase` and `pending` (60_exceptions.md R202). -/
def execRender (mv : Bits16) (s : State) : StepOutcome :=
  if Config.mvMax < mv.toNat then raise (.mvRange mv) s
  else if Config.secMod - 1 < s.seconds then raise (.secondsRange s.seconds) s
  else if s.pending = false then .next (setPhase .atPoll s)
  else renderDigit mv (clearPending (setPhase .atPoll s))

end Sys2Proof.Machine
end

