-- ==== Sys2Proof/Machine/Dispatch.lean ====
section
/-! DEFINITION. One arm per operation of 30_encoding.md R77: each arm calls that operation's meaning. -/

namespace Sys2Proof.Machine

def exec (i : Instr) (s : State) : Host.Outcome State Fault Refusal :=
  match i with
  | .segrd d => Sys2Proof.Machine.execSegrd d s
  | .selrd p => Sys2Proof.Machine.execSelrd p s
  | .emit segments digitSelect => Sys2Proof.Machine.execEmit segments digitSelect s
  | .pinwLatch v => Sys2Proof.Machine.execPinwLatch v s
  | .pinwClock v => Sys2Proof.Machine.execPinwClock v s
  | .pinwData v => Sys2Proof.Machine.execPinwData v s
  | .refresh => Sys2Proof.Machine.execRefresh s
  | .render mv => Sys2Proof.Machine.execRender mv s
  | .sectick => Sys2Proof.Machine.execSectick s
  | .poll r m => Sys2Proof.Machine.execPoll r m s

end Sys2Proof.Machine
end

