-- ==== Sys2Proof/Machine/Issue.lean ====
section
/-! DEFINITION. How one entry of a trace is checked and run (60_exceptions.md R206), what stands for a step of an exhausted
trace, and the state each outcome leaves. -/

namespace Sys2Proof.Machine

/-- An operation word, decoded and checked in the order of 60_exceptions.md R206 and run: `Undecodable`, then
`WrongTraceKind`, then `OutOfPhase`, then what the operation does. -/
def stepItem (item : TraceItem) (s : State) : StepOutcome :=
  match decode item.word with
  | .error _ => refuse (.undecodable item.word) s
  | .ok i =>
    if admittedIn s.traceKind item.agent i = false then refuse (.wrongTraceKind item.word) s
    else if inPhase s.lphase i = false then refuse (.outOfPhase item.word) s
    else exec i s

/-- The next entry of the trace, run in the state whose trace is the rest. With the trace exhausted no agent issues
anything and nothing changes (log 2). -/
def stepTrace (s : State) : StepOutcome :=
  match s.trace with
  | [] => .next s
  | item :: rest => stepItem item (setTrace rest s)

/-- One step: `BadParams` comes before everything else (60_exceptions.md R206). -/
def stepChecked (s : State) : StepOutcome :=
  match s.params.failedCheck with
  | some c => refuse (.badParams c) s
  | none => stepTrace s

/-- The state an outcome leaves, where the step began at `s` (00_scope.md R11; log 28). -/
def outcomeState (o : StepOutcome) (s : State) : State :=
  match o with
  | .next t => t
  | .fault f => f.after
  | .refused r => r.after s

/-- The word `w` of `nbits` bits as an operation word: the bits above `nbits` are 0. -/
def tableWord (nbits w : Nat) : OpWord := BitVec.ofNat 24 (w % 2 ^ nbits)

end Sys2Proof.Machine
end

