-- ==== Sys2Proof/Machine/Step.lean ====
section
/-! DEFINITION. One step of the machine, the state it leaves, and the host's way to place one word. -/

namespace Sys2Proof.Machine

/-- One step (00_scope.md R11, R12). -/
def step (s : State) : Host.Outcome State Fault Refusal := stepChecked s

/-- The state after a step, whichever of the three outcomes of 00_scope.md R11 it ends in (log 28). -/
def advance (s : State) : State := outcomeState (step s) s

/-- The state in which the next step runs the word `w` of `nbits` bits (log 1). -/
def State.withFetchWord (s : State) (nbits w : Nat) : State := placeWord (tableWord nbits w) s

end Sys2Proof.Machine
end

