-- ==== Sys2Proof/Machine/Boot.lean ====
section
/-! DEFINITION. The state effect of the boot steps of 70_reset_and_hazards.md R234. Steps (2) and (4) configure the platform and
write no element of State (log 27). -/

namespace Sys2Proof.Machine

/-- Boot step (1): LATCH, CLOCK and DATA are driven to 0. -/
def bootWires (s : State) : State := setPin .data false (setPin .clock false (setPin .latch false s))

/-- Boot step (3): `pending`, `idx`, `seconds` and `prevReset` get their values of R230. -/
def bootVariables (s : State) : State :=
  { s with pending := false, idx := 0, seconds := 0, prevReset := s.params.prevResetInit }

/-- Boot step (5): the main loop is entered at POLL. -/
def bootEnter (s : State) : State := setPhase .atPoll s

/-- Boot, in the order of R234. -/
def boot (s : State) : State := bootEnter (bootVariables (bootWires s))

end Sys2Proof.Machine
end

