-- ==== Sys2Proof/Machine/Display.lean ====
section
/-! DEFINITION. The lit view of the display, derived from `O` for observation only (10_state.md R28): no meaning reads it. -/

namespace Sys2Proof.Machine

/-- Two active-low lines light a segment when both cells are 0, and an `unknown` cell makes the result unknown
(10_state.md R28; log 23). -/
def bothOn (x y : Cell) : Cell :=
  match x, y with
  | .known a, .known b => .known (!a && !b)
  | .unknown, _ => .unknown
  | .known _, .unknown => .unknown

/-- The cell of `O` that drives the digit line of position `p` (10_state.md R27). -/
def digitCell (s : State) (p : Fin 4) : Cell := s.storage[s.params.digitLine[p].val]'(by omega)

/-- The cell of `O` that drives the segment line of bit `b` (10_state.md R27). -/
def segmentCell (s : State) (b : Fin 8) : Cell := s.storage[8 + b.val]'(by omega)

/-- Whether segment `x` of position `p` is lit (10_state.md R28). -/
def segLit (s : State) (p : Fin 4) (x : Segment) : Cell := bothOn (digitCell s p) (segmentCell s (s.params.segBit.get x))

/-- Whether the indicator of position `p` is lit (10_state.md R28). -/
def indLit (s : State) (p : Fin 4) : Cell := bothOn (digitCell s p) (segmentCell s s.params.indBit)

/-- The positions whose digit line is known to be enabled: its cell of `O` is 0 (10_state.md R27; 70_reset_and_hazards.md R243).
DESIGN CHOICE (log 31): a position whose cell is `unknown` is left out, so at reset the list is empty, where R27, R231 and R233
leave open which lines are enabled. -/
def enabledDigits (s : State) : List (Fin 4) := (List.finRange 4).filter fun p => digitCell s p == .known false

end Sys2Proof.Machine
end

