-- ==== Sys2Proof/Machine/Program.lean ====
section
/-! DEFINITION. The pseudo-instructions and the assembler lines of 30_encoding.md R80, the emit wire sequence of
41_serial_sequencer.md R121, and what is seen of the wires while a list of operations runs. -/

namespace Sys2Proof.Machine

/-- `shiftbit b` (30_encoding.md R80). -/
def shiftbit (b : Bit) : List Instr := [.pinwData b, .pinwClock true, .pinwClock false]

/-- `EmitSeq(E)`, the 50 wire writes of one emit (41_serial_sequencer.md R121). -/
def emitSeq (E : Bits16) : List Instr :=
  .pinwLatch false :: (List.range 16).reverse.flatMap (fun i => shiftbit (E.getLsbD i)) ++ [.pinwLatch true]

/-- `emitp s, k` (30_encoding.md R80). -/
def emitp (segments digitSelect : Bits8) : List Instr := emitSeq (emitWord segments digitSelect)

/-- `iter r, m, mv`, one main-loop iteration (30_encoding.md R80). -/
def iter (r m : Bit) (mv : Bits16) : List Instr := [.poll r m, .render mv]

/-- `idle r, m` (30_encoding.md R80). -/
def idleIter (r m : Bit) : List Instr := iter r m 0

/-- A list of operations run one after another with nothing between them, up to the first that stops. -/
def runOps (ops : List Instr) (s : State) : StepOutcome :=
  match ops with
  | [] => .next s
  | i :: rest =>
    match exec i s with
    | .next t => runOps rest t
    | .fault f => .fault f
    | .refused r => .refused r

/-- The operation raises this wire from 0 to 1 at this state (41_serial_sequencer.md R122). -/
def raises (n : Pin) (i : Instr) (s : State) : Bool :=
  match n, i with
  | .latch, .pinwLatch v => v && !s.latch
  | .clock, .pinwClock v => v && !s.clock
  | .data, .pinwData v => v && !s.data
  | _, _ => false

/-- The levels of DATA and LATCH at each rising edge of a wire while a list of operations runs, first edge first
(41_serial_sequencer.md R130). -/
def edgesOf (n : Pin) (ops : List Instr) (s : State) : List (Bit × Bit) :=
  match ops with
  | [] => []
  | i :: rest =>
    let later := match exec i s with
      | .next t => edgesOf n rest t
      | .fault _ => []
      | .refused _ => []
    if raises n i s then (s.data, s.latch) :: later else later

/-- The refresh, poll and render of one digit, as a trace of a slow enough refresh issues them (95_test_vectors.md P1). -/
def digitOps (r m : Bit) (mv : Bits16) : List Instr := .refresh :: iter r m mv

/-- One display frame: four digits (42_tdm_scheduler.md R157). -/
def frameOps (r m : Bit) (mv : Bits16) : List Instr :=
  digitOps r m mv ++ digitOps r m mv ++ digitOps r m mv ++ digitOps r m mv

/-- The trace of a list of operations, each issued by its own agent (30_encoding.md R80). -/
def traceOf (ops : List Instr) : List TraceItem := ops.map itemOf

/-! ### Assembler lines -/

/-- A line of a program (30_encoding.md R80): an operation or a pseudo-instruction. -/
inductive AsmLine where
  | op (i : Instr)
  | shiftbit (b : Bit)
  | emitp (segments digitSelect : Bits8)
  | iter (r m : Bit) (mv : Bits16)
  | idle (r m : Bit)
deriving DecidableEq, Repr

/-- The operations a line stands for (30_encoding.md R80). -/
def expandLine (l : AsmLine) : List Instr :=
  match l with
  | .op i => [i]
  | .shiftbit b => shiftbit b
  | .emitp s k => emitp s k
  | .iter r m mv => iter r m mv
  | .idle r m => idleIter r m

/-- The trace a program stands for (30_encoding.md R80). -/
def assemble (lines : List AsmLine) : List TraceItem := traceOf (lines.flatMap expandLine)

/-- The prefix letter of an agent (30_encoding.md R80). -/
def agentLetter (a : Agent) : String :=
  match a with
  | .mainLoop => "L"
  | .refreshIrq => "R"
  | .tickIrq => "T"
  | .unitPort => "U"

/-- A level as the assembler writes it. -/
def levelText (v : Bit) : String := if v then "1" else "0"

/-- A byte as the assembler writes it, in hexadecimal (30_encoding.md R80, 00_scope.md R8). -/
def byteText (b : Bits8) : String :=
  "0x" ++ String.ofList ([b.toNat / 16, b.toNat % 16].map fun d => (Nat.digitChar d).toUpper)

/-- The text of an operation, without its agent prefix (30_encoding.md R80). -/
def opText (i : Instr) : String :=
  match i with
  | .segrd d => "segrd " ++ toString d.toNat
  | .selrd p => "selrd " ++ toString p.toNat
  | .emit s k => "emit " ++ byteText s ++ ", " ++ byteText k
  | .pinwLatch v => "pinw latch, " ++ levelText v
  | .pinwClock v => "pinw clock, " ++ levelText v
  | .pinwData v => "pinw data, " ++ levelText v
  | .refresh => "refresh"
  | .render mv => "render " ++ toString mv.toNat
  | .sectick => "sectick"
  | .poll r m => "poll " ++ levelText r ++ ", " ++ levelText m

/-- The text of a line, with its agent prefix (30_encoding.md R80). -/
def lineText (l : AsmLine) : String :=
  match l with
  | .op i => agentLetter i.agent ++ ": " ++ opText i
  | .shiftbit b => "U: shiftbit " ++ levelText b
  | .emitp s k => "U: emitp " ++ byteText s ++ ", " ++ byteText k
  | .iter r m mv => "L: iter " ++ levelText r ++ ", " ++ levelText m ++ ", " ++ toString mv.toNat
  | .idle r m => "L: idle " ++ levelText r ++ ", " ++ levelText m

end Sys2Proof.Machine
end

