-- ==== Sys2Proof/Safety.lean ====
section
/-! DEFINITION. What counts as a safe run (00_scope.md R11, R13): no fault recorded, no refusal marked, the trace run to its
end. -/

namespace Sys2Proof.Machine

/-- No fault is recorded and no refusal is marked (00_scope.md R13). -/
def State.clean (s : State) : Bool := s.faults.isEmpty && !s.refused

/-- "A state is final for a finite trace when the trace is exhausted, `faults` is empty and `refused` is false"
(00_scope.md R13). It does not read the parameters (log 32). -/
def State.isFinal (s : State) : Bool := s.trace.isEmpty && s.clean

/-- The state after `k` steps, going on past a fault or a refusal, whose marks stay (60_exceptions.md R205; log 28). -/
def advanceN (k : Nat) (s : State) : State :=
  match k with
  | 0 => s
  | k + 1 => advanceN k (advance s)

/-- The state after the whole trace: one step for each of its entries (00_scope.md R13). DESIGN CHOICE (log 32): an empty trace
takes no step, so parameters that fail a check of R7 are not refused there, and `refused` stays as it was. -/
def runTrace (s : State) : State := advanceN s.trace.length s

/-- A safe run: the whole trace runs to a final state (00_scope.md R13). By the model's choice (log 32) an empty trace from a
clean state is such a run, whatever the parameters. -/
def SafeRun (s : State) : Prop := (runTrace s).isFinal = true

/-- A committed word whose selector byte is the `SEL_TABLE` entry of position `p` (42_tdm_scheduler.md R154,
70_reset_and_hazards.md R243). -/
def ShowsPosition (P : Params) (p : Fin 4) (w : Cells16) : Prop :=
  ∃ pat : Bits8, w = ofBits (emitWord pat P.selTable[p])

/-- What holds of every state of a system trace from reset, and every step keeps: the parameters pass their checks
(00_scope.md R7), CLOCK rests at 0 (70_reset_and_hazards.md R235), the count stays in range (43_environment.md R184), the shift chain
holds the displayed word, which is the last one committed (10_state.md R27, 70_reset_and_hazards.md R233), the committed words
show the positions 0, 1, 2, 3, 0, ... in turn and `idx` is the next of them (42_tdm_scheduler.md R156), and `faults` is in its
listed form (log 13). -/
structure SystemInv (s : State) : Prop where
  systemTrace : s.traceKind = .system
  paramsWf : s.params.wf = true
  clockLow : s.clock = false
  secondsInRange : s.seconds ≤ 5999
  shiftIsStorage : s.shiftChain = s.storage
  storageIsLast : s.storage = s.commits.getLast?.getD (Vector.replicate 16 .unknown)
  positionsInTurn : ∀ (j : Nat) (w : Cells16), s.commits[j]? = some w → ShowsPosition s.params (Fin.ofNat 4 j) w
  idxCountsCommits : s.idx.val = s.commits.length % 4
  faultsListed : faultsWf s.faults = true

end Sys2Proof.Machine
end

