-- ==== Sys2Proof/Certificates/Slice0/Obligations.lean ====
section
/-! DEFINITION. The statements for the provers: the numbered rules of spec/ and what follows from them, over every state and
every parameter set. -/

open Sys2Proof Sys2Proof.Machine

/-! ### Encoding -/

/-- 30_encoding.md R75 to R77: the decoder reads back every operation the encoder writes, as a word and as bytes. -/
def Obligations.DecodeEncodeRoundTrip : Prop :=
  ∀ (i : Instr) (rest : List Bits8),
    decode (encode i) = .ok i ∧ decodeBytes (encodeBytes i ++ rest) = .ok (i, rest)

/-- 30_encoding.md R76, R78: a word that decodes has no bit the operation does not determine. -/
def Obligations.DecodedWordIsItsEncoding : Prop :=
  ∀ (w : OpWord) (i : Instr), decode w = .ok i → encode i = w

/-- 30_encoding.md R77, R78: a word decodes exactly when it matches a row of the opcode map, and to that row's operation. -/
def Obligations.DecoderFollowsOpcodeMap : Prop :=
  (∀ (r : OpcodeRow), r ∈ opcodeTable → ∀ w : OpWord, w &&& r.mask = r.pattern →
    ∃ i : Instr, decode w = .ok i ∧ i.row = r ∧ i.mnemonic = r.mnemonic ∧ i.agent = r.agent) ∧
  (∀ (w : OpWord) (i : Instr), decode w = .ok i → i.row ∈ opcodeTable ∧ w &&& i.row.mask = i.row.pattern)

/-- 30_encoding.md R77, R79: no word matches two rows of the opcode map. -/
def Obligations.NoWordMatchesTwoRows : Prop :=
  opcodeTable.Pairwise fun r q => ∀ w : OpWord, ¬(w &&& r.mask = r.pattern ∧ w &&& q.mask = q.pattern)

/-- 30_encoding.md R77, R78 and 95_test_vectors.md: written-out words of every family decode to the operation they
stand for, and the listed invalid words do not decode. -/
def Obligations.WrittenWordsDecode : Prop :=
  decode 0b00000001_00000101_00000000 = .ok (.segrd 5) ∧
  decode 0b00000010_00000010_00000000 = .ok (.selrd 2) ∧
  decode 0b00000011_11000000_11111110 = .ok (.emit 0xC0 0xFE) ∧
  decode 0b00000100_00000000_00000001 = .ok (.pinwLatch true) ∧
  decode 0b00000100_00000001_00000001 = .ok (.pinwClock true) ∧
  decode 0b00000100_00000010_00000000 = .ok (.pinwData false) ∧
  decode 0b00010000_00000000_00000000 = .ok .refresh ∧
  decode 0b00010001_00000110_01110010 = .ok (.render 1650) ∧
  decode 0b00100000_00000000_00000000 = .ok .sectick ∧
  decode 0b00100001_00000010_00000000 = .ok (.poll true false) ∧
  decode 0x000000 = .error .unassignedOp ∧ decode 0x011000 = .error .fixedBits ∧
  decode 0x040300 = .error .noSuchPin ∧ decode 0x210400 = .error .fixedBits

/-! ### The step -/

/-- 00_scope.md R12, 30_encoding.md R81, R82: with a parameter set that passes its checks, the next word of the trace is run
as the operation it decodes to when its own agent issues it in a trace of its kind and at its phase. The trace moves past
the word and nothing else is added (that State holds the trace is the model's choice, log 1). -/
def Obligations.StepRunsDecodedInstruction : Prop :=
  ∀ (s : State) (w : OpWord) (rest : List TraceItem) (i : Instr),
    s.params.wf = true → s.trace = ⟨i.agent, w⟩ :: rest → decode w = .ok i → s.traceKind = i.traceKind →
    (∀ l, i.phase = some l → s.lphase = l) →
    step s = exec i { s with trace := rest }

/-- 60_exceptions.md R206, 30_encoding.md R78, R81, R82: the refusals of a step come in the order `BadParams`, `Undecodable`,
`WrongTraceKind`, `OutOfPhase`, each before the operation has any effect, and each leaves only the mark `refused`. By the
model's reading, not R206's or R81's words: a word tagged with another agent is refused as `WrongTraceKind` (log 4), `BadParams`
is answered at every step and not once before the first (log 5), and the refused word has left the trace (log 24). -/
def Obligations.RefusalsComeInOrder : Prop :=
  ∀ (s : State),
    (s.params.wf = false → ∃ c, s.params.failedCheck = some c ∧
      step s = .refused (.badParams c { s with refused := true })) ∧
    (s.params.wf = true → ∀ (item : TraceItem) (rest : List TraceItem), s.trace = item :: rest →
      ((∀ i, decode item.word ≠ .ok i) →
        step s = .refused (.undecodable item.word { s with trace := rest, refused := true })) ∧
      (∀ i, decode item.word = .ok i →
        (item.agent ≠ i.agent ∨ s.traceKind ≠ i.traceKind →
          step s = .refused (.wrongTraceKind item.word { s with trace := rest, refused := true })) ∧
        (item.agent = i.agent → s.traceKind = i.traceKind → (∃ l, i.phase = some l ∧ s.lphase ≠ l) →
          step s = .refused (.outOfPhase item.word { s with trace := rest, refused := true }))))

/-- The host's entry, by the model's choice (log 1): under parameters that pass their checks, an operation's word placed in any
state is what the next step runs, in a state that differs from that one at most in the trace kind and the loop phase. -/
def Obligations.PlacedWordRunsNext : Prop :=
  ∀ (s : State) (i : Instr), s.params.wf = true →
    decodeTableWord 24 (encode i).toNat = some i ∧
    ∃ (l : LPhase), (i.phase = none → l = s.lphase) ∧
      step (s.withFetchWord 24 (encode i).toNat) = exec i { s with traceKind := i.traceKind, lphase := l }

/-- 00_scope.md R7: the three checks say what R7 says of the bits of each selector pattern, the digit lines and the indicator
bit, no check reads `SEG_TABLE`, and a parameter set that fails a check, and no other, is refused by a check's name. By the
model's reading, not R7's words: the checks are tried in R7's order, `BadParams` names the first to fail, and every step makes
the check (log 5). -/
def Obligations.ParameterChecksGuardEveryStep : Prop :=
  (∀ P : Params,
    (P.oneDigit = true ↔ ∀ (p : Fin 4) (b : Fin 8), P.digitLineMask.getLsbD b.val = true →
      (P.selTable[p].getLsbD b.val = false ↔ b = P.digitLine[p])) ∧
    (P.distinctLines = true ↔ (∀ p q : Fin 4, P.digitLine[p] = P.digitLine[q] → p = q) ∧
      ∀ p : Fin 4, P.digitLineMask.getLsbD P.digitLine[p].val = true) ∧
    (P.indFree = true ↔ ∀ x : Segment, P.segBit.get x ≠ P.indBit) ∧
    (P.wf = true ↔ P.oneDigit = true ∧ P.distinctLines = true ∧ P.indFree = true) ∧
    ∀ T : Vector Bits8 10, Params.wf { P with segTable := T } = P.wf) ∧
  (∀ (s : State) (c : ParamCheck) (t : State), step s = .refused (.badParams c t) ↔
    t = { s with refused := true } ∧
    ((c = .oneDigit ∧ s.params.oneDigit = false) ∨
     (c = .distinctLines ∧ s.params.oneDigit = true ∧ s.params.distinctLines = false) ∨
     (c = .indFree ∧ s.params.oneDigit = true ∧ s.params.distinctLines = true ∧ s.params.indFree = false)))

/-! ### The lookup ROMs -/

/-- 40_rom_lookup.md R100: SEGRD returns the table word as stored and writes nothing else. A digit value above 9 faults and
writes only `faults`. (That returned values are kept in a list is the model's choice, log 11.) -/
def Obligations.SegrdReturnsStoredWord : Prop :=
  ∀ (d : BitVec 4) (s : State),
    (∀ h : d.toNat < 10, exec (.segrd d) s = .next { s with returns := s.returns ++ [s.params.segTable[d.toNat]] }) ∧
    (9 < d.toNat →
      exec (.segrd d) s = .fault (.segAddrRange d { s with faults := insertFault (.segAddrRange d) s.faults }))

/-- 40_rom_lookup.md R102: SELRD returns the table word of every position and writes nothing else. (That returned values are
kept in a list is the model's choice, log 11.) -/
def Obligations.SelrdReturnsStoredWord : Prop :=
  ∀ (p : Fin 4) (s : State),
    exec (.selrd (BitVec.ofFin p)) s = .next { s with returns := s.returns ++ [s.params.selTable[p]] }

/-- 20_memory.md R52: no operation and no run changes a ROM word, whatever outcome its steps end in. This is the memory frame
of every operation: every address of both spaces reads as before. -/
def Obligations.RomContentsNeverChange : Prop :=
  (∀ (i : Instr) (s : State) (a : BitVec 4) (p : BitVec 2),
    memReadSeg (outcomeState (exec i s) s) a = memReadSeg s a ∧
    memReadSel (outcomeState (exec i s) s) p = memReadSel s p) ∧
  (∀ (k : Nat) (s : State) (a : BitVec 4) (p : BitVec 2),
    memReadSeg (advanceN k s) a = memReadSeg s a ∧ memReadSel (advanceN k s) p = memReadSel s p)

/-- 20_memory.md R50, R51, R57: the address map is complete: both spaces written out are in canonical form, and a read at
an address answers the byte listed there, or nothing where nothing is mapped. -/
def Obligations.ReadsFollowAddressMap : Prop :=
  ∀ (s : State),
    (segMemory s).wf = true ∧ (selMemory s).wf = true ∧
    (∀ a : BitVec 4, memReadSeg s a = (segMemory s).read a.toNat) ∧
    (∀ p : BitVec 2, some (memReadSel s p) = (selMemory s).read p.toNat) ∧
    (∀ a : BitVec 4, memReadSeg s a = none ↔ 10 ≤ a.toNat)

/-- 40_rom_lookup.md R104, R105: `withInd` clears the lane `IND_BIT` and leaves the other seven lanes as they are. -/
def Obligations.IndicatorClearsOneLane : Prop :=
  ∀ (P : Params) (pat : Bits8),
    (∀ b : Fin 8, (withInd P pat).getLsbD b.val = (pat.getLsbD b.val && decide (b ≠ P.indBit))) ∧
    (pat.getLsbD P.indBit.val = false → withInd P pat = pat) ∧
    withInd P (withInd P pat) = withInd P pat

/-! ### The serial output sequencer -/

/-- 41_serial_sequencer.md R124: an EMIT with CLOCK at 0 puts the emit word into S, O and `commits`, ends with LATCH = 1, CLOCK
= 0 and DATA at bit 0 of the word, and writes nothing else. With CLOCK at 1 it faults and writes only `faults`. -/
def Obligations.EmitTransfersWord : Prop :=
  ∀ (segments digitSelect : Bits8) (s : State),
    (s.clock = false → exec (.emit segments digitSelect) s = .next { s with
      shiftChain := ofBits (emitWord segments digitSelect)
      storage := ofBits (emitWord segments digitSelect)
      commits := s.commits ++ [ofBits (emitWord segments digitSelect)]
      latch := true
      clock := false
      data := digitSelect.getLsbD 0 }) ∧
    (s.clock = true → exec (.emit segments digitSelect) s =
      .fault (.clockNotIdle true { s with faults := insertFault (.clockNotIdle true) s.faults }))

/-- 41_serial_sequencer.md R122, R126: a rising edge of CLOCK moves every cell one stage up, takes DATA into cell 0 whatever
LATCH is, and writes nothing else. (The edge is the spec's decision D9; log 16.) -/
def Obligations.ClockRisingEdgeShifts : Prop :=
  ∀ (s : State), s.clock = false → ∃ chain : Cells16,
    exec (.pinwClock true) s = .next { s with clock := true, shiftChain := chain } ∧
    chain[0] = .known s.data ∧ ∀ (i : Nat) (h : i + 1 < 16), chain[i + 1] = s.shiftChain[i]

/-- 41_serial_sequencer.md R122, R127: a rising edge of LATCH copies all 16 cells of S to O, unknown cells as unknown, appends
the word to `commits`, and writes nothing else. (The edge is the spec's decision D9; log 16.) -/
def Obligations.LatchRisingEdgeCommits : Prop :=
  ∀ (s : State), s.latch = false →
    exec (.pinwLatch true) s = .next { s with
      latch := true, storage := s.shiftChain, commits := s.commits ++ [s.shiftChain] }

/-- 41_serial_sequencer.md R122: a wire write that makes no rising edge of CLOCK or LATCH sets the wire and has no device
effect: a write of 0, a write of the level the wire holds, and every write of DATA. -/
def Obligations.WireWriteWithoutEdgeSetsWire : Prop :=
  ∀ (v : Bit) (s : State),
    exec (.pinwData v) s = .next { s with data := v } ∧
    (s.clock = true ∨ v = false → exec (.pinwClock v) s = .next { s with clock := v }) ∧
    (s.latch = true ∨ v = false → exec (.pinwLatch v) s = .next { s with latch := v })

/-- 41_serial_sequencer.md R128, R129: from CLOCK = 0 the 50 wire writes of `EmitSeq(E)` end in exactly the state of the atomic
EMIT of E, and at every point before the last write the display and `commits` are as they were. -/
def Obligations.EmitSequenceAgreesWithEmit : Prop :=
  ∀ (E : Bits16) (s : State), s.clock = false →
    (emitSeq E).length = 50 ∧
    (∃ t, runOps (emitSeq E) s = .next t ∧
      exec (.emit (E.extractLsb' 8 8) (E.extractLsb' 0 8)) s = .next t ∧
      t.shiftChain = ofBits E ∧ t.storage = ofBits E ∧ t.commits = s.commits ++ [ofBits E] ∧
      t.latch = true ∧ t.clock = false ∧ t.data = E.getLsbD 0) ∧
    (∀ n : Nat, n < 50 → ∃ t, runOps ((emitSeq E).take n) s = .next t ∧
      t.storage = s.storage ∧ t.commits = s.commits)

/-- 41_serial_sequencer.md R130: from CLOCK = 0, `EmitSeq(E)` makes exactly 16 clock pulses, with DATA at E[15] down to E[0] and
LATCH at 0 at each rising edge, and one rising edge of LATCH. -/
def Obligations.EmitSequenceClocksSixteenBits : Prop :=
  ∀ (E : Bits16) (s : State), s.clock = false →
    edgesOf .clock (emitSeq E) s = (List.range 16).map (fun k => (E.getLsbD (15 - k), false)) ∧
    (edgesOf .latch (emitSeq E) s).length = 1

/-- 41_serial_sequencer.md R131: from CLOCK = 1 the same sequence shifts only 15 bits: it commits one word whose cell 15 is the
old S[0] and whose cells 14..0 are E[14:0]. -/
def Obligations.EmitSequenceFromClockHighShiftsFifteen : Prop :=
  ∀ (E : Bits16) (s : State), s.clock = true →
    ∃ (w : Cells16) (t : State), runOps (emitSeq E) s = .next t ∧
      t.storage = w ∧ t.shiftChain = w ∧ t.commits = s.commits ++ [w] ∧
      w[15] = s.shiftChain[0] ∧ ∀ (i : Nat) (h : i < 15), w[i] = .known (E.getLsbD i)

/-! ### The time-division multiplexer -/

/-- 42_tdm_scheduler.md R150: REFRESH sets `pending` and writes nothing else, whether or not it was set, and it is enabled in
every state of a system trace. -/
def Obligations.RefreshSetsPending : Prop :=
  (∀ s : State, exec .refresh s = .next { s with pending := true }) ∧
  (∀ (s : State) (rest : List TraceItem), s.params.wf = true → s.traceKind = .system →
    s.trace = ⟨.refreshIrq, 0x100000⟩ :: rest → step s = .next { s with trace := rest, pending := true })

/-- 42_tdm_scheduler.md R151: the digit dispatch is total, in 0..9, takes every value of 0..9, and follows the table of each
mode. -/
def Obligations.DigitDispatchFollowsTable : Prop :=
  (∀ (mode : DisplayMode) (p : Fin 4) (seconds mv : Nat), seconds ≤ 5999 → mv ≤ 9999 →
    digitValue mode p seconds mv ≤ 9) ∧
  (∀ d : Nat, d ≤ 9 → ∀ mode : DisplayMode, ∃ (p : Fin 4) (seconds mv : Nat),
    seconds ≤ 5999 ∧ mv ≤ 9999 ∧ digitValue mode p seconds mv = d) ∧
  (∀ seconds mv : Nat,
    digitValue .time 0 seconds mv = seconds / 60 / 10 ∧ digitValue .time 1 seconds mv = seconds / 60 % 10 ∧
    digitValue .time 2 seconds mv = seconds % 60 / 10 ∧ digitValue .time 3 seconds mv = seconds % 60 % 10 ∧
    digitValue .volt 0 seconds mv = mv / 1000 ∧ digitValue .volt 1 seconds mv = mv % 1000 / 100 ∧
    digitValue .volt 2 seconds mv = mv % 1000 % 100 / 10 ∧ digitValue .volt 3 seconds mv = mv % 1000 % 10)

/-- 42_tdm_scheduler.md R151, 43_environment.md R187: the four digits of a frame are the decimal digits of the value shown: MM:SS
in TIME mode and millivolts in VOLT mode. -/
def Obligations.FrameDigitsRecomposeValue : Prop :=
  ∀ (seconds mv : Nat), seconds ≤ 5999 → mv ≤ 9999 →
    (10 * digitValue .time 0 seconds mv + digitValue .time 1 seconds mv) * 60 +
      (10 * digitValue .time 2 seconds mv + digitValue .time 3 seconds mv) = seconds ∧
    digitValue .time 2 seconds mv ≤ 5 ∧
    1000 * digitValue .volt 0 seconds mv + 100 * digitValue .volt 1 seconds mv +
      10 * digitValue .volt 2 seconds mv + digitValue .volt 3 seconds mv = mv

/-- 42_tdm_scheduler.md R155: the indicator is at position 1 in TIME mode and at position 0 in VOLT mode: there the bit is cleared,
and at every other position the stored pattern is shown unchanged. -/
def Obligations.IndicatorPositions : Prop :=
  ∀ p : Fin 4, (indAt .time p = true ↔ p = 1) ∧ (indAt .volt p = true ↔ p = 0) ∧
    ∀ (P : Params) (mode : DisplayMode) (stored : Bits8),
      shownPattern P mode p stored = if indAt mode p then withInd P stored else stored

/-- 42_tdm_scheduler.md R152 (with a refresh pending): RENDER emits the shown pattern of the digit of the current position with
that position's selector, clears `pending`, moves `idx` to the next position, returns the loop to AtPoll, and writes nothing
else. -/
def Obligations.RenderConsumesRefresh : Prop :=
  ∀ (mv : Bits16) (s : State), mv.toNat ≤ 9999 → s.seconds ≤ 5999 → s.pending = true → s.clock = false →
    ∃ stored : Bits8, s.params.segTable[digitValue s.mode s.idx s.seconds mv.toNat]? = some stored ∧
      let E := emitWord (if indAt s.mode s.idx then withInd s.params stored else stored) s.params.selTable[s.idx]
      exec (.render mv) s = .next { s with
        lphase := .atPoll
        pending := false
        shiftChain := ofBits E
        storage := ofBits E
        commits := s.commits ++ [ofBits E]
        latch := true
        clock := false
        data := s.params.selTable[s.idx].getLsbD 0
        idx := s.idx + 1 }

/-- 42_tdm_scheduler.md R160: a RENDER with no refresh pending changes only `lphase`, back to AtPoll, whatever the mode, the index
and the wires are. -/
def Obligations.RenderIdleChangesOnlyPhase : Prop :=
  ∀ (mv : Bits16) (s : State), mv.toNat ≤ 9999 → s.seconds ≤ 5999 → s.pending = false →
    exec (.render mv) s = .next { s with lphase := .atPoll }

/-- 42_tdm_scheduler.md R152, 60_exceptions.md R202 to R204, R206: RENDER's faults in their order, and what each leaves. The
range faults write only `faults`, and the fault of its emit keeps the writes of `lphase` and `pending`. -/
def Obligations.RenderFaultsInOrder : Prop :=
  ∀ (mv : Bits16) (s : State),
    (9999 < mv.toNat →
      exec (.render mv) s = .fault (.mvRange mv { s with faults := insertFault (.mvRange mv) s.faults })) ∧
    (mv.toNat ≤ 9999 → 5999 < s.seconds → exec (.render mv) s =
      .fault (.secondsRange s.seconds { s with faults := insertFault (.secondsRange s.seconds) s.faults })) ∧
    (mv.toNat ≤ 9999 → s.seconds ≤ 5999 → s.pending = true → s.clock = true → exec (.render mv) s =
      .fault (.clockNotIdle true { s with
        lphase := .atPoll, pending := false, faults := insertFault (.clockNotIdle true) s.faults }))

/-- 42_tdm_scheduler.md R152, R153: in TIME mode a render does not depend on the sample it carries, and in VOLT mode it does not
depend on `seconds`, which it leaves alone. -/
def Obligations.RenderReadsOnlyItsModeSource : Prop :=
  (∀ (s : State) (mv mv' : Bits16), s.mode = .time → mv.toNat ≤ 9999 → mv'.toNat ≤ 9999 →
    exec (.render mv) s = exec (.render mv') s) ∧
  (∀ (s t : State) (mv : Bits16) (n : Nat), s.mode = .volt → n ≤ 5999 → exec (.render mv) s = .next t →
    exec (.render mv) { s with seconds := n } = .next { t with seconds := n })

/-- 42_tdm_scheduler.md R156: in a system trace the index moves, by one modulo 4, exactly in a RENDER that consumes a refresh,
which commits one word. From reset, after k such renders the index is k mod 4. -/
def Obligations.IndexAdvancesOncePerConsumedRefresh : Prop :=
  (∀ s t : State, s.traceKind = .system → step s = .next t →
    (t.idx = s.idx ∧ t.commits = s.commits ∧ (s.pending = true → t.pending = true)) ∨
    (s.pending = true ∧ t.pending = false ∧ t.idx = s.idx + 1 ∧ t.commits.length = s.commits.length + 1 ∧
      ∃ (mv : Bits16) (rest : List TraceItem), s.trace = ⟨.mainLoop, encode (.render mv)⟩ :: rest)) ∧
  (∀ (P : Params) (items : List TraceItem) (k : Nat),
    let t := advanceN k (loadTrace .system items (State.resetWith P))
    t.idx.val = t.commits.length % 4)

/-- 42_tdm_scheduler.md R157: over any stretch of any system trace from position 0, with `mode`, `seconds` and `mv` unchanged at
its renders, in which four words are committed, the words are those of positions 0, 1, 2, 3. What else the stretch holds
(ticks that come back to the count, refreshes that coalesce, idle iterations) does not matter, nor does a refusal in it: that
the run goes on past a stop is the model's reading (log 28). -/
def Obligations.FrameWordsUnderEveryInterleaving : Prop :=
  ∀ (s : State) (n : Nat) (mode : DisplayMode) (seconds : Nat) (mv : Bits16),
    s.traceKind = .system → s.clock = false → s.idx = 0 → seconds ≤ 5999 → mv.toNat ≤ 9999 →
    (∀ k, k < n → (advanceN k s).lphase = .atRender →
      (advanceN k s).mode = mode ∧ (advanceN k s).seconds = seconds) →
    (∀ item ∈ s.trace.take n, ∀ mv', decode item.word = .ok (.render mv') → mv' = mv) →
    ∃ E : Fin 4 → Bits16,
      (∀ p : Fin 4, ∃ stored : Bits8, s.params.segTable[digitValue mode p seconds mv.toNat]? = some stored ∧
        E p = emitWord (if indAt mode p then withInd s.params stored else stored) s.params.selTable[p]) ∧
      ((advanceN n s).commits.length = s.commits.length + 4 →
        (advanceN n s).commits = s.commits ++ [ofBits (E 0), ofBits (E 1), ofBits (E 2), ofBits (E 3)])

/-- 42_tdm_scheduler.md R157, 95_test_vectors.md P1 and P2: a display frame from position 0, issued digit by digit with one
button level and one sample, runs without a fault or a refusal and commits the words of positions 0, 1, 2, 3 in turn. (That
State holds the trace is the model's choice, log 1.) -/
def Obligations.FrameCommitsFourPositions : Prop :=
  ∀ (s : State) (r m : Bit) (mv : Bits16) (rest : List TraceItem),
    s.params.wf = true → s.traceKind = .system → s.lphase = .atPoll → s.idx = 0 → s.clock = false →
    s.seconds ≤ 5999 → mv.toNat ≤ 9999 → resetEdge s.prevReset r = false →
    s.trace = traceOf (frameOps r m mv) ++ rest →
    ∃ (t : State) (E : Fin 4 → Bits16),
      Host.Core.run Sys2Proof.core 12 s = .next t ∧
      t.commits = s.commits ++ [ofBits (E 0), ofBits (E 1), ofBits (E 2), ofBits (E 3)] ∧
      t.idx = 0 ∧ t.pending = false ∧ t.seconds = s.seconds ∧ t.trace = rest ∧
      ∀ p : Fin 4, ∃ stored : Bits8,
        s.params.segTable[digitValue (modeOfLevel m) p s.seconds mv.toNat]? = some stored ∧
        E p = emitWord (if indAt (modeOfLevel m) p then withInd s.params stored else stored) s.params.selTable[p]

/-- 10_state.md R27, R28, 42_tdm_scheduler.md R154: after a render that consumes a refresh the only enabled digit line is the
current position's, and each of its segments and its indicator is lit exactly when its bit of the shown pattern is 0. -/
def Obligations.ConsumingRenderLightsItsDigit : Prop :=
  ∀ (mv : Bits16) (s : State), s.params.wf = true → mv.toNat ≤ 9999 → s.seconds ≤ 5999 → s.pending = true →
    s.clock = false →
    ∃ (stored : Bits8) (t : State),
      s.params.segTable[digitValue s.mode s.idx s.seconds mv.toNat]? = some stored ∧
      exec (.render mv) s = .next t ∧ enabledDigits t = [s.idx] ∧
      (∀ x : Segment, segLit t s.idx x = .known (!stored.getLsbD (s.params.segBit.get x).val)) ∧
      indLit t s.idx = .known (indAt s.mode s.idx || !stored.getLsbD s.params.indBit.val)

/-! ### The environment's operations -/

/-- 43_environment.md R180: SECTICK adds one to `seconds`, or wraps 5999 to 0, writes nothing else, and is enabled in every state
of a system trace. -/
def Obligations.SectickCountsAndWraps : Prop :=
  (∀ s : State, exec .sectick s = .next { s with seconds := if s.seconds = 5999 then 0 else s.seconds + 1 }) ∧
  (∀ (s : State) (rest : List TraceItem), s.params.wf = true → s.traceKind = .system →
    s.trace = ⟨.tickIrq, 0x200000⟩ :: rest → step s = .next { s with
      trace := rest, seconds := if s.seconds = 5999 then 0 else s.seconds + 1 })

/-- 43_environment.md R182: POLL clears `seconds` exactly on a 1 to 0 change of the reset level, remembers the level, sets the mode
from the mode level, moves the loop to AtRender, and writes nothing else. Its word is `0x21 (2r+m) 00`, and agent L's POLL is
enabled at AtPoll only. -/
def Obligations.PollFollowsLevels : Prop :=
  ∀ (r m : Bit) (s : State),
    exec (.poll r m) s = .next { s with
      seconds := if s.prevReset = true ∧ r = false then 0 else s.seconds
      prevReset := r
      mode := if m = false then .volt else .time
      lphase := .atRender } ∧
    decode (opWord 0x21 (BitVec.ofNat 8 (2 * r.toNat + m.toNat)) 0x00) = .ok (.poll r m) ∧
    (s.params.wf = true → s.traceKind = .system → ∀ rest : List TraceItem,
      s.trace = ⟨.mainLoop, opWord 0x21 (BitVec.ofNat 8 (2 * r.toNat + m.toNat)) 0x00⟩ :: rest →
      (s.lphase = .atPoll → step s = exec (.poll r m) { s with trace := rest }) ∧
      (s.lphase = .atRender → ∃ w t, step s = .refused (.outOfPhase w t)))

/-- 43_environment.md R182 (corner cases), 30_encoding.md R82: a reset button still held at the next poll resets nothing.
First clause: after a poll at level 0 and any operations that are no poll, a render among them, a second poll at level 0 changes
only the mode and the phase. Second clause: in every system trace that polls the button down twice, with any refreshes and
ticks and the render R82 asks for between the polls, the run gets there, the count is what the ticks made of it since the
first poll, and the second poll leaves it and `prevReset` alone. (That State holds the trace is the model's choice, log 1.) -/
def Obligations.HeldResetButtonResetsOnce : Prop :=
  (∀ (m m' : Bit) (ops : List Instr) (s t : State), (∀ i ∈ ops, ∀ r l, i ≠ .poll r l) →
    runOps (.poll false m :: ops) s = .next t →
    exec (.poll false m') t = .next { t with mode := modeOfLevel m', lphase := .atRender }) ∧
  (∀ (m m' : Bit) (mv : Bits16) (before after : List Instr) (s : State) (rest : List TraceItem),
    (∀ i ∈ before ++ after, i = .refresh ∨ i = .sectick) →
    s.params.wf = true → s.traceKind = .system → s.lphase = .atPoll → s.clock = false → s.seconds ≤ 5999 →
    mv.toNat ≤ 9999 →
    s.trace = traceOf (.poll false m :: (before ++ .render mv :: (after ++ [.poll false m']))) ++ rest →
    ∃ t : State,
      Host.Core.run Sys2Proof.core (before.length + after.length + 2) s = .next t ∧
      t.seconds = ((if s.prevReset then 0 else s.seconds) + (before ++ after).count .sectick) % 6000 ∧
      t.prevReset = false ∧
      step t = .next { t with trace := rest, mode := modeOfLevel m', lphase := .atRender })

/-- 43_environment.md R186: the clamp is `min(m, 9999)`, and it changes no value of at most 3300 mV, the most an exact
conversion gives. -/
def Obligations.ClampIsMinimum : Prop :=
  (∀ m : Nat, clampMv m = min m 9999) ∧ (∀ m : Nat, m ≤ 3300 → clampMv m = m) ∧
  ∀ x : Config.Sample, (x.val * (Config.vrefV : ℝ) * 1000 : ℝ) ≤ 3300

/-- 43_environment.md R187: decompose splits m into volts and fractional millivolts within their ranges, and recomposing gives m
back. The two parts are the `ip` and `fr` of the digit dispatch. -/
def Obligations.DecomposeRecomposes : Prop :=
  ∀ m : Nat, m ≤ 9999 →
    decompose m = (m / 1000, m % 1000) ∧ (decompose m).1 * 1000 + (decompose m).2 = m ∧
    (decompose m).1 ≤ 9 ∧ (decompose m).2 ≤ 999 ∧
    (∀ seconds, digitValue .volt 0 seconds m = (decompose m).1 ∧
      digitValue .volt 1 seconds m = (decompose m).2 / 100 ∧
      digitValue .volt 2 seconds m = (decompose m).2 % 100 / 10 ∧
      digitValue .volt 3 seconds m = (decompose m).2 % 10)

/-- 43_environment.md R185: whatever the OPEN conversion is, a RENDER that carries a clamped sample completes. -/
def Obligations.ClampedSampleRenders : Prop :=
  ∀ (x : Config.Sample) (s : State), s.seconds ≤ 5999 → s.clock = false →
    ∃ t, exec (.render (BitVec.ofNat 16 (sampleMv x))) s = .next t

/-! ### Reset, invariants and whole-machine rules -/

/-- 70_reset_and_hazards.md R230: every element at its reset value, for every parameter set, and both interrupt sources
enabled. -/
def Obligations.ResetState : Prop :=
  (∀ P : Params, let s := State.resetWith P
    s.params = P ∧ s.pending = false ∧ s.idx = 0 ∧ s.mode = .time ∧
    s.latch = false ∧ s.clock = false ∧ s.data = false ∧
    (∀ (i : Nat) (h : i < 16), s.shiftChain[i] = .unknown ∧ s.storage[i] = .unknown) ∧
    s.lphase = .atPoll ∧ s.seconds = 0 ∧ s.prevReset = P.prevResetInit ∧
    s.commits = [] ∧ s.faults = [] ∧ s.refused = false) ∧
  State.reset = State.resetWith Params.default ∧ Params.default.prevResetInit = true ∧
  (∃ t, step (loadTrace .system [⟨.refreshIrq, 0x100000⟩] State.reset) = .next t ∧ t.pending = true) ∧
  (∃ t, step (loadTrace .system [⟨.tickIrq, 0x200000⟩] State.reset) = .next t ∧ t.seconds = 1)

/-- 70_reset_and_hazards.md R234, R235, R236: from any state before it, boot brings LATCH, CLOCK, DATA, `pending`, `idx`,
`seconds`, `prevReset` and `lphase` to their values of R230. That it leaves every other element as it was, `mode`, S, O,
`commits`, `faults` and `refused` among them, is the model's reading (log 27): boot alone does not bring those to R230. A reset
at any time brings every element to its value of R230. That the parameters and the outside world's trace stay there is the
model's choice (log 26). -/
def Obligations.BootSetsNamedElementsAndResetReachesR230 : Prop :=
  ∀ s : State,
    boot s = { State.resetWith s.params with
      mode := s.mode, shiftChain := s.shiftChain, storage := s.storage, commits := s.commits, faults := s.faults
      refused := s.refused, returns := s.returns, traceKind := s.traceKind, trace := s.trace } ∧
    applyReset s = { State.resetWith s.params with traceKind := s.traceKind, trace := s.trace }

/-- Every step of a system trace, whatever outcome it ends in, keeps the invariant of system traces: see `SystemInv`. -/
def Obligations.SystemInvariantKept : Prop :=
  ∀ s : State, SystemInv s → (∀ t, step s = .next t → SystemInv t) ∧ SystemInv (advance s)

/-- The invariant of system traces holds at reset under every parameter set that passes its checks, and at `State.reset`, whose
kind of trace is the model's choice (log 3). -/
def Obligations.SystemInvariantAtReset : Prop :=
  (∀ (P : Params) (items : List TraceItem), P.wf = true → SystemInv (loadTrace .system items (State.resetWith P))) ∧
  SystemInv State.reset

/-- 70_reset_and_hazards.md R233, R243: in a state of a system trace that meets the invariant, after the first commit exactly one
digit line is enabled. -/
def Obligations.OneDigitEnabledAfterFirstCommit : Prop :=
  ∀ s : State, SystemInv s → s.commits ≠ [] → ∃ p : Fin 4, enabledDigits s = [p]

/-- 60_exceptions.md R200 (its last column), 43_environment.md R184, 70_reset_and_hazards.md R235: from a state that meets the invariant
of system traces the only fault a step can end in is `MvRange`, of a sample above 9999, and it leaves `pending` and
`lphase` alone. -/
def Obligations.SystemTraceFaultsOnlyOnMvRange : Prop :=
  ∀ (s : State) (f : Fault), SystemInv s → step s = .fault f →
    ∃ (mv : Bits16) (t : State), f = .mvRange mv t ∧ 9999 < mv.toNat ∧ t.pending = s.pending ∧ t.lphase = s.lphase

/-- 43_environment.md R184: `seconds` stays in 0..5999 in every trace, and every value of the range is some tick's result. -/
def Obligations.SecondsStayInRange : Prop :=
  State.reset.seconds ≤ 5999 ∧
  (∀ s : State, s.seconds ≤ 5999 → (advance s).seconds ≤ 5999) ∧
  (∀ s t : State, ∀ n : Nat, s.seconds ≤ 5999 → step s ≠ .fault (.secondsRange n t)) ∧
  (∀ n : Nat, n ≤ 5999 → ∃ k, k ≤ 5999 ∧ tickSeconds k = n)

/-- 10_state.md R34, 20_memory.md R59: which operation may write which element. An element with no clause for an operation is
left unchanged by it. The clauses on `returns`, `traceKind` and `trace` are about the model's own fields and no rule of the spec:
that returned values are kept in a list (40_rom_lookup.md R100, R102) is the model's choice, log 11, and so are the fields of
the trace, log 1 and log 3. That the parameters stand in State is the model's reading, log 5. -/
def Obligations.WritersOfEachElement : Prop :=
  ∀ (i : Instr) (s t : State), exec i s = .next t →
    t.params = s.params ∧ t.faults = s.faults ∧ t.refused = s.refused ∧
    t.traceKind = s.traceKind ∧ t.trace = s.trace ∧
    (t.pending ≠ s.pending → i = .refresh ∨ ∃ mv, i = .render mv) ∧
    (t.idx ≠ s.idx → ∃ mv, i = .render mv) ∧
    (t.mode ≠ s.mode → ∃ r m, i = .poll r m) ∧
    (t.lphase ≠ s.lphase → (∃ mv, i = .render mv) ∨ ∃ r m, i = .poll r m) ∧
    (t.seconds ≠ s.seconds → i = .sectick ∨ ∃ r m, i = .poll r m) ∧
    (t.prevReset ≠ s.prevReset → ∃ r m, i = .poll r m) ∧
    (t.latch ≠ s.latch → (∃ a b, i = .emit a b) ∨ (∃ v, i = .pinwLatch v) ∨ ∃ mv, i = .render mv) ∧
    (t.clock ≠ s.clock → ∃ v, i = .pinwClock v) ∧
    (t.data ≠ s.data → (∃ a b, i = .emit a b) ∨ (∃ v, i = .pinwData v) ∨ ∃ mv, i = .render mv) ∧
    (t.shiftChain ≠ s.shiftChain → (∃ a b, i = .emit a b) ∨ i = .pinwClock true ∨ ∃ mv, i = .render mv) ∧
    (t.storage ≠ s.storage → (∃ a b, i = .emit a b) ∨ i = .pinwLatch true ∨ ∃ mv, i = .render mv) ∧
    (t.commits ≠ s.commits → t.commits = s.commits ++ [t.storage] ∧
      ((∃ a b, i = .emit a b) ∨ i = .pinwLatch true ∨ ∃ mv, i = .render mv)) ∧
    (t.returns ≠ s.returns → (∃ d, i = .segrd d) ∨ ∃ p, i = .selrd p)

/-- 60_exceptions.md R205, 00_scope.md R11: a fault's kind and info are recorded, a refusal's mark is set, both marks stay through
every later step, and such a state is never final. -/
def Obligations.MarksAreSticky : Prop :=
  (∀ (s : State) (f : Fault), step s = .fault f → f.entry ∈ (advance s).faults) ∧
  (∀ (s : State) (r : Refusal), step s = .refused r → (advance s).refused = true) ∧
  (∀ (k : Nat) (s : State),
    (∀ e ∈ s.faults, e ∈ (advanceN k s).faults) ∧
    (s.refused = true → (advanceN k s).refused = true) ∧
    (s.faults ≠ [] ∨ s.refused = true → (advanceN k s).isFinal = false))

/-- 60_exceptions.md R208, R210, R211, 41_serial_sequencer.md R125: the two interrupts commute, and an interrupt taken before a
serial operation that completes has the same effect as one taken after it. -/
def Obligations.InterruptsCommute : Prop :=
  (∀ s : State, runOps [.refresh, .sectick] s = runOps [.sectick, .refresh] s) ∧
  (∀ (i irq : Instr) (s t : State), i.traceKind = .unit → irq = .refresh ∨ irq = .sectick →
    exec i s = .next t → runOps [irq, i] s = runOps [i, irq] s)
end

