-- ==== Sys2Proof/Laws/Decode.lean ====
section
/-! SUPPORT. The byte fields of an operation word. -/

namespace Sys2Proof

theorem opWord_toNat (op a b : Bits8) : (opWord op a b).toNat = op.toNat * 65536 + a.toNat * 256 + b.toNat := by
  have ha := a.isLt
  have hb := b.isLt
  refine (BitVec.toNat_append (op ++ a) b).trans ?_
  rw [BitVec.toNat_append, ← Nat.shiftLeft_add_eq_or_of_lt (by omega), ← Nat.shiftLeft_add_eq_or_of_lt (by omega)]
  simp only [Nat.shiftLeft_eq]
  omega

@[simp] theorem opField_opWord (op a b : Bits8) : opField (opWord op a b) = op := by
  apply BitVec.eq_of_toNat_eq
  have := op.isLt; have := a.isLt; have := b.isLt
  simp only [opField, BitVec.extractLsb'_toNat, opWord_toNat, Nat.shiftRight_eq_div_pow]
  omega

@[simp] theorem aField_opWord (op a b : Bits8) : aField (opWord op a b) = a := by
  apply BitVec.eq_of_toNat_eq
  have := op.isLt; have := a.isLt; have := b.isLt
  simp only [aField, BitVec.extractLsb'_toNat, opWord_toNat, Nat.shiftRight_eq_div_pow]
  omega

@[simp] theorem bField_opWord (op a b : Bits8) : bField (opWord op a b) = b := by
  apply BitVec.eq_of_toNat_eq
  have := op.isLt; have := a.isLt; have := b.isLt
  simp only [bField, BitVec.extractLsb'_toNat, opWord_toNat, Nat.shiftRight_eq_div_pow]
  omega

theorem opWord_fields (w : OpWord) : opWord (opField w) (aField w) (bField w) = w := by
  apply BitVec.eq_of_toNat_eq
  have := w.isLt
  simp only [opField, aField, bField, opWord_toNat, BitVec.extractLsb'_toNat, Nat.shiftRight_eq_div_pow]
  omega

theorem decode_opWord (op a b : Bits8) : decode (opWord op a b) = decodeFields op a b := by
  rw [decode, opField_opWord, aField_opWord, bField_opWord]

end Sys2Proof
end

