-- ==== Sys2Proof/Laws/State.lean ====
section
/-! SUPPORT. One lemma for each field after each named write of State (10_state.md R34), so that no later proof unfolds a record
update. -/

namespace Sys2Proof.Machine

/-! ### setPhase -/

@[simp] theorem setPhase_params (l : LPhase) (s : State) : (setPhase l s).params = s.params := rfl
@[simp] theorem setPhase_pending (l : LPhase) (s : State) : (setPhase l s).pending = s.pending := rfl
@[simp] theorem setPhase_idx (l : LPhase) (s : State) : (setPhase l s).idx = s.idx := rfl
@[simp] theorem setPhase_mode (l : LPhase) (s : State) : (setPhase l s).mode = s.mode := rfl
@[simp] theorem setPhase_latch (l : LPhase) (s : State) : (setPhase l s).latch = s.latch := rfl
@[simp] theorem setPhase_clock (l : LPhase) (s : State) : (setPhase l s).clock = s.clock := rfl
@[simp] theorem setPhase_data (l : LPhase) (s : State) : (setPhase l s).data = s.data := rfl
@[simp] theorem setPhase_shiftChain (l : LPhase) (s : State) : (setPhase l s).shiftChain = s.shiftChain := rfl
@[simp] theorem setPhase_storage (l : LPhase) (s : State) : (setPhase l s).storage = s.storage := rfl
@[simp] theorem setPhase_lphase (l : LPhase) (s : State) : (setPhase l s).lphase = l := rfl
@[simp] theorem setPhase_seconds (l : LPhase) (s : State) : (setPhase l s).seconds = s.seconds := rfl
@[simp] theorem setPhase_prevReset (l : LPhase) (s : State) : (setPhase l s).prevReset = s.prevReset := rfl
@[simp] theorem setPhase_commits (l : LPhase) (s : State) : (setPhase l s).commits = s.commits := rfl
@[simp] theorem setPhase_faults (l : LPhase) (s : State) : (setPhase l s).faults = s.faults := rfl
@[simp] theorem setPhase_refused (l : LPhase) (s : State) : (setPhase l s).refused = s.refused := rfl
@[simp] theorem setPhase_returns (l : LPhase) (s : State) : (setPhase l s).returns = s.returns := rfl
@[simp] theorem setPhase_traceKind (l : LPhase) (s : State) : (setPhase l s).traceKind = s.traceKind := rfl
@[simp] theorem setPhase_trace (l : LPhase) (s : State) : (setPhase l s).trace = s.trace := rfl

/-! ### setIdx -/

@[simp] theorem setIdx_params (p : Fin 4) (s : State) : (setIdx p s).params = s.params := rfl
@[simp] theorem setIdx_pending (p : Fin 4) (s : State) : (setIdx p s).pending = s.pending := rfl
@[simp] theorem setIdx_idx (p : Fin 4) (s : State) : (setIdx p s).idx = p := rfl
@[simp] theorem setIdx_mode (p : Fin 4) (s : State) : (setIdx p s).mode = s.mode := rfl
@[simp] theorem setIdx_latch (p : Fin 4) (s : State) : (setIdx p s).latch = s.latch := rfl
@[simp] theorem setIdx_clock (p : Fin 4) (s : State) : (setIdx p s).clock = s.clock := rfl
@[simp] theorem setIdx_data (p : Fin 4) (s : State) : (setIdx p s).data = s.data := rfl
@[simp] theorem setIdx_shiftChain (p : Fin 4) (s : State) : (setIdx p s).shiftChain = s.shiftChain := rfl
@[simp] theorem setIdx_storage (p : Fin 4) (s : State) : (setIdx p s).storage = s.storage := rfl
@[simp] theorem setIdx_lphase (p : Fin 4) (s : State) : (setIdx p s).lphase = s.lphase := rfl
@[simp] theorem setIdx_seconds (p : Fin 4) (s : State) : (setIdx p s).seconds = s.seconds := rfl
@[simp] theorem setIdx_prevReset (p : Fin 4) (s : State) : (setIdx p s).prevReset = s.prevReset := rfl
@[simp] theorem setIdx_commits (p : Fin 4) (s : State) : (setIdx p s).commits = s.commits := rfl
@[simp] theorem setIdx_faults (p : Fin 4) (s : State) : (setIdx p s).faults = s.faults := rfl
@[simp] theorem setIdx_refused (p : Fin 4) (s : State) : (setIdx p s).refused = s.refused := rfl
@[simp] theorem setIdx_returns (p : Fin 4) (s : State) : (setIdx p s).returns = s.returns := rfl
@[simp] theorem setIdx_traceKind (p : Fin 4) (s : State) : (setIdx p s).traceKind = s.traceKind := rfl
@[simp] theorem setIdx_trace (p : Fin 4) (s : State) : (setIdx p s).trace = s.trace := rfl

/-! ### setMode -/

@[simp] theorem setMode_params (m : DisplayMode) (s : State) : (setMode m s).params = s.params := rfl
@[simp] theorem setMode_pending (m : DisplayMode) (s : State) : (setMode m s).pending = s.pending := rfl
@[simp] theorem setMode_idx (m : DisplayMode) (s : State) : (setMode m s).idx = s.idx := rfl
@[simp] theorem setMode_mode (m : DisplayMode) (s : State) : (setMode m s).mode = m := rfl
@[simp] theorem setMode_latch (m : DisplayMode) (s : State) : (setMode m s).latch = s.latch := rfl
@[simp] theorem setMode_clock (m : DisplayMode) (s : State) : (setMode m s).clock = s.clock := rfl
@[simp] theorem setMode_data (m : DisplayMode) (s : State) : (setMode m s).data = s.data := rfl
@[simp] theorem setMode_shiftChain (m : DisplayMode) (s : State) : (setMode m s).shiftChain = s.shiftChain := rfl
@[simp] theorem setMode_storage (m : DisplayMode) (s : State) : (setMode m s).storage = s.storage := rfl
@[simp] theorem setMode_lphase (m : DisplayMode) (s : State) : (setMode m s).lphase = s.lphase := rfl
@[simp] theorem setMode_seconds (m : DisplayMode) (s : State) : (setMode m s).seconds = s.seconds := rfl
@[simp] theorem setMode_prevReset (m : DisplayMode) (s : State) : (setMode m s).prevReset = s.prevReset := rfl
@[simp] theorem setMode_commits (m : DisplayMode) (s : State) : (setMode m s).commits = s.commits := rfl
@[simp] theorem setMode_faults (m : DisplayMode) (s : State) : (setMode m s).faults = s.faults := rfl
@[simp] theorem setMode_refused (m : DisplayMode) (s : State) : (setMode m s).refused = s.refused := rfl
@[simp] theorem setMode_returns (m : DisplayMode) (s : State) : (setMode m s).returns = s.returns := rfl
@[simp] theorem setMode_traceKind (m : DisplayMode) (s : State) : (setMode m s).traceKind = s.traceKind := rfl
@[simp] theorem setMode_trace (m : DisplayMode) (s : State) : (setMode m s).trace = s.trace := rfl

/-! ### setSeconds -/

@[simp] theorem setSeconds_params (n : Nat) (s : State) : (setSeconds n s).params = s.params := rfl
@[simp] theorem setSeconds_pending (n : Nat) (s : State) : (setSeconds n s).pending = s.pending := rfl
@[simp] theorem setSeconds_idx (n : Nat) (s : State) : (setSeconds n s).idx = s.idx := rfl
@[simp] theorem setSeconds_mode (n : Nat) (s : State) : (setSeconds n s).mode = s.mode := rfl
@[simp] theorem setSeconds_latch (n : Nat) (s : State) : (setSeconds n s).latch = s.latch := rfl
@[simp] theorem setSeconds_clock (n : Nat) (s : State) : (setSeconds n s).clock = s.clock := rfl
@[simp] theorem setSeconds_data (n : Nat) (s : State) : (setSeconds n s).data = s.data := rfl
@[simp] theorem setSeconds_shiftChain (n : Nat) (s : State) : (setSeconds n s).shiftChain = s.shiftChain := rfl
@[simp] theorem setSeconds_storage (n : Nat) (s : State) : (setSeconds n s).storage = s.storage := rfl
@[simp] theorem setSeconds_lphase (n : Nat) (s : State) : (setSeconds n s).lphase = s.lphase := rfl
@[simp] theorem setSeconds_seconds (n : Nat) (s : State) : (setSeconds n s).seconds = n := rfl
@[simp] theorem setSeconds_prevReset (n : Nat) (s : State) : (setSeconds n s).prevReset = s.prevReset := rfl
@[simp] theorem setSeconds_commits (n : Nat) (s : State) : (setSeconds n s).commits = s.commits := rfl
@[simp] theorem setSeconds_faults (n : Nat) (s : State) : (setSeconds n s).faults = s.faults := rfl
@[simp] theorem setSeconds_refused (n : Nat) (s : State) : (setSeconds n s).refused = s.refused := rfl
@[simp] theorem setSeconds_returns (n : Nat) (s : State) : (setSeconds n s).returns = s.returns := rfl
@[simp] theorem setSeconds_traceKind (n : Nat) (s : State) : (setSeconds n s).traceKind = s.traceKind := rfl
@[simp] theorem setSeconds_trace (n : Nat) (s : State) : (setSeconds n s).trace = s.trace := rfl

/-! ### setPrevReset -/

@[simp] theorem setPrevReset_params (r : Bit) (s : State) : (setPrevReset r s).params = s.params := rfl
@[simp] theorem setPrevReset_pending (r : Bit) (s : State) : (setPrevReset r s).pending = s.pending := rfl
@[simp] theorem setPrevReset_idx (r : Bit) (s : State) : (setPrevReset r s).idx = s.idx := rfl
@[simp] theorem setPrevReset_mode (r : Bit) (s : State) : (setPrevReset r s).mode = s.mode := rfl
@[simp] theorem setPrevReset_latch (r : Bit) (s : State) : (setPrevReset r s).latch = s.latch := rfl
@[simp] theorem setPrevReset_clock (r : Bit) (s : State) : (setPrevReset r s).clock = s.clock := rfl
@[simp] theorem setPrevReset_data (r : Bit) (s : State) : (setPrevReset r s).data = s.data := rfl
@[simp] theorem setPrevReset_shiftChain (r : Bit) (s : State) : (setPrevReset r s).shiftChain = s.shiftChain := rfl
@[simp] theorem setPrevReset_storage (r : Bit) (s : State) : (setPrevReset r s).storage = s.storage := rfl
@[simp] theorem setPrevReset_lphase (r : Bit) (s : State) : (setPrevReset r s).lphase = s.lphase := rfl
@[simp] theorem setPrevReset_seconds (r : Bit) (s : State) : (setPrevReset r s).seconds = s.seconds := rfl
@[simp] theorem setPrevReset_prevReset (r : Bit) (s : State) : (setPrevReset r s).prevReset = r := rfl
@[simp] theorem setPrevReset_commits (r : Bit) (s : State) : (setPrevReset r s).commits = s.commits := rfl
@[simp] theorem setPrevReset_faults (r : Bit) (s : State) : (setPrevReset r s).faults = s.faults := rfl
@[simp] theorem setPrevReset_refused (r : Bit) (s : State) : (setPrevReset r s).refused = s.refused := rfl
@[simp] theorem setPrevReset_returns (r : Bit) (s : State) : (setPrevReset r s).returns = s.returns := rfl
@[simp] theorem setPrevReset_traceKind (r : Bit) (s : State) : (setPrevReset r s).traceKind = s.traceKind := rfl
@[simp] theorem setPrevReset_trace (r : Bit) (s : State) : (setPrevReset r s).trace = s.trace := rfl

/-! ### setShift -/

@[simp] theorem setShift_params (w : Cells16) (s : State) : (setShift w s).params = s.params := rfl
@[simp] theorem setShift_pending (w : Cells16) (s : State) : (setShift w s).pending = s.pending := rfl
@[simp] theorem setShift_idx (w : Cells16) (s : State) : (setShift w s).idx = s.idx := rfl
@[simp] theorem setShift_mode (w : Cells16) (s : State) : (setShift w s).mode = s.mode := rfl
@[simp] theorem setShift_latch (w : Cells16) (s : State) : (setShift w s).latch = s.latch := rfl
@[simp] theorem setShift_clock (w : Cells16) (s : State) : (setShift w s).clock = s.clock := rfl
@[simp] theorem setShift_data (w : Cells16) (s : State) : (setShift w s).data = s.data := rfl
@[simp] theorem setShift_shiftChain (w : Cells16) (s : State) : (setShift w s).shiftChain = w := rfl
@[simp] theorem setShift_storage (w : Cells16) (s : State) : (setShift w s).storage = s.storage := rfl
@[simp] theorem setShift_lphase (w : Cells16) (s : State) : (setShift w s).lphase = s.lphase := rfl
@[simp] theorem setShift_seconds (w : Cells16) (s : State) : (setShift w s).seconds = s.seconds := rfl
@[simp] theorem setShift_prevReset (w : Cells16) (s : State) : (setShift w s).prevReset = s.prevReset := rfl
@[simp] theorem setShift_commits (w : Cells16) (s : State) : (setShift w s).commits = s.commits := rfl
@[simp] theorem setShift_faults (w : Cells16) (s : State) : (setShift w s).faults = s.faults := rfl
@[simp] theorem setShift_refused (w : Cells16) (s : State) : (setShift w s).refused = s.refused := rfl
@[simp] theorem setShift_returns (w : Cells16) (s : State) : (setShift w s).returns = s.returns := rfl
@[simp] theorem setShift_traceKind (w : Cells16) (s : State) : (setShift w s).traceKind = s.traceKind := rfl
@[simp] theorem setShift_trace (w : Cells16) (s : State) : (setShift w s).trace = s.trace := rfl

/-! ### commitWord -/

@[simp] theorem commitWord_params (w : Cells16) (s : State) : (commitWord w s).params = s.params := rfl
@[simp] theorem commitWord_pending (w : Cells16) (s : State) : (commitWord w s).pending = s.pending := rfl
@[simp] theorem commitWord_idx (w : Cells16) (s : State) : (commitWord w s).idx = s.idx := rfl
@[simp] theorem commitWord_mode (w : Cells16) (s : State) : (commitWord w s).mode = s.mode := rfl
@[simp] theorem commitWord_latch (w : Cells16) (s : State) : (commitWord w s).latch = s.latch := rfl
@[simp] theorem commitWord_clock (w : Cells16) (s : State) : (commitWord w s).clock = s.clock := rfl
@[simp] theorem commitWord_data (w : Cells16) (s : State) : (commitWord w s).data = s.data := rfl
@[simp] theorem commitWord_shiftChain (w : Cells16) (s : State) : (commitWord w s).shiftChain = s.shiftChain := rfl
@[simp] theorem commitWord_storage (w : Cells16) (s : State) : (commitWord w s).storage = w := rfl
@[simp] theorem commitWord_lphase (w : Cells16) (s : State) : (commitWord w s).lphase = s.lphase := rfl
@[simp] theorem commitWord_seconds (w : Cells16) (s : State) : (commitWord w s).seconds = s.seconds := rfl
@[simp] theorem commitWord_prevReset (w : Cells16) (s : State) : (commitWord w s).prevReset = s.prevReset := rfl
@[simp] theorem commitWord_commits (w : Cells16) (s : State) : (commitWord w s).commits = s.commits ++ [w] := rfl
@[simp] theorem commitWord_faults (w : Cells16) (s : State) : (commitWord w s).faults = s.faults := rfl
@[simp] theorem commitWord_refused (w : Cells16) (s : State) : (commitWord w s).refused = s.refused := rfl
@[simp] theorem commitWord_returns (w : Cells16) (s : State) : (commitWord w s).returns = s.returns := rfl
@[simp] theorem commitWord_traceKind (w : Cells16) (s : State) : (commitWord w s).traceKind = s.traceKind := rfl
@[simp] theorem commitWord_trace (w : Cells16) (s : State) : (commitWord w s).trace = s.trace := rfl

/-! ### returnByte -/

@[simp] theorem returnByte_params (b : Bits8) (s : State) : (returnByte b s).params = s.params := rfl
@[simp] theorem returnByte_pending (b : Bits8) (s : State) : (returnByte b s).pending = s.pending := rfl
@[simp] theorem returnByte_idx (b : Bits8) (s : State) : (returnByte b s).idx = s.idx := rfl
@[simp] theorem returnByte_mode (b : Bits8) (s : State) : (returnByte b s).mode = s.mode := rfl
@[simp] theorem returnByte_latch (b : Bits8) (s : State) : (returnByte b s).latch = s.latch := rfl
@[simp] theorem returnByte_clock (b : Bits8) (s : State) : (returnByte b s).clock = s.clock := rfl
@[simp] theorem returnByte_data (b : Bits8) (s : State) : (returnByte b s).data = s.data := rfl
@[simp] theorem returnByte_shiftChain (b : Bits8) (s : State) : (returnByte b s).shiftChain = s.shiftChain := rfl
@[simp] theorem returnByte_storage (b : Bits8) (s : State) : (returnByte b s).storage = s.storage := rfl
@[simp] theorem returnByte_lphase (b : Bits8) (s : State) : (returnByte b s).lphase = s.lphase := rfl
@[simp] theorem returnByte_seconds (b : Bits8) (s : State) : (returnByte b s).seconds = s.seconds := rfl
@[simp] theorem returnByte_prevReset (b : Bits8) (s : State) : (returnByte b s).prevReset = s.prevReset := rfl
@[simp] theorem returnByte_commits (b : Bits8) (s : State) : (returnByte b s).commits = s.commits := rfl
@[simp] theorem returnByte_faults (b : Bits8) (s : State) : (returnByte b s).faults = s.faults := rfl
@[simp] theorem returnByte_refused (b : Bits8) (s : State) : (returnByte b s).refused = s.refused := rfl
@[simp] theorem returnByte_returns (b : Bits8) (s : State) : (returnByte b s).returns = s.returns ++ [b] := rfl
@[simp] theorem returnByte_traceKind (b : Bits8) (s : State) : (returnByte b s).traceKind = s.traceKind := rfl
@[simp] theorem returnByte_trace (b : Bits8) (s : State) : (returnByte b s).trace = s.trace := rfl

/-! ### recordFault -/

@[simp] theorem recordFault_params (e : FaultEntry) (s : State) : (recordFault e s).params = s.params := rfl
@[simp] theorem recordFault_pending (e : FaultEntry) (s : State) : (recordFault e s).pending = s.pending := rfl
@[simp] theorem recordFault_idx (e : FaultEntry) (s : State) : (recordFault e s).idx = s.idx := rfl
@[simp] theorem recordFault_mode (e : FaultEntry) (s : State) : (recordFault e s).mode = s.mode := rfl
@[simp] theorem recordFault_latch (e : FaultEntry) (s : State) : (recordFault e s).latch = s.latch := rfl
@[simp] theorem recordFault_clock (e : FaultEntry) (s : State) : (recordFault e s).clock = s.clock := rfl
@[simp] theorem recordFault_data (e : FaultEntry) (s : State) : (recordFault e s).data = s.data := rfl
@[simp] theorem recordFault_shiftChain (e : FaultEntry) (s : State) : (recordFault e s).shiftChain = s.shiftChain := rfl
@[simp] theorem recordFault_storage (e : FaultEntry) (s : State) : (recordFault e s).storage = s.storage := rfl
@[simp] theorem recordFault_lphase (e : FaultEntry) (s : State) : (recordFault e s).lphase = s.lphase := rfl
@[simp] theorem recordFault_seconds (e : FaultEntry) (s : State) : (recordFault e s).seconds = s.seconds := rfl
@[simp] theorem recordFault_prevReset (e : FaultEntry) (s : State) : (recordFault e s).prevReset = s.prevReset := rfl
@[simp] theorem recordFault_commits (e : FaultEntry) (s : State) : (recordFault e s).commits = s.commits := rfl
@[simp] theorem recordFault_faults (e : FaultEntry) (s : State) : (recordFault e s).faults = insertFault e s.faults := rfl
@[simp] theorem recordFault_refused (e : FaultEntry) (s : State) : (recordFault e s).refused = s.refused := rfl
@[simp] theorem recordFault_returns (e : FaultEntry) (s : State) : (recordFault e s).returns = s.returns := rfl
@[simp] theorem recordFault_traceKind (e : FaultEntry) (s : State) : (recordFault e s).traceKind = s.traceKind := rfl
@[simp] theorem recordFault_trace (e : FaultEntry) (s : State) : (recordFault e s).trace = s.trace := rfl

/-! ### markRefused -/

@[simp] theorem markRefused_params (s : State) : (markRefused s).params = s.params := rfl
@[simp] theorem markRefused_pending (s : State) : (markRefused s).pending = s.pending := rfl
@[simp] theorem markRefused_idx (s : State) : (markRefused s).idx = s.idx := rfl
@[simp] theorem markRefused_mode (s : State) : (markRefused s).mode = s.mode := rfl
@[simp] theorem markRefused_latch (s : State) : (markRefused s).latch = s.latch := rfl
@[simp] theorem markRefused_clock (s : State) : (markRefused s).clock = s.clock := rfl
@[simp] theorem markRefused_data (s : State) : (markRefused s).data = s.data := rfl
@[simp] theorem markRefused_shiftChain (s : State) : (markRefused s).shiftChain = s.shiftChain := rfl
@[simp] theorem markRefused_storage (s : State) : (markRefused s).storage = s.storage := rfl
@[simp] theorem markRefused_lphase (s : State) : (markRefused s).lphase = s.lphase := rfl
@[simp] theorem markRefused_seconds (s : State) : (markRefused s).seconds = s.seconds := rfl
@[simp] theorem markRefused_prevReset (s : State) : (markRefused s).prevReset = s.prevReset := rfl
@[simp] theorem markRefused_commits (s : State) : (markRefused s).commits = s.commits := rfl
@[simp] theorem markRefused_faults (s : State) : (markRefused s).faults = s.faults := rfl
@[simp] theorem markRefused_refused (s : State) : (markRefused s).refused = true := rfl
@[simp] theorem markRefused_returns (s : State) : (markRefused s).returns = s.returns := rfl
@[simp] theorem markRefused_traceKind (s : State) : (markRefused s).traceKind = s.traceKind := rfl
@[simp] theorem markRefused_trace (s : State) : (markRefused s).trace = s.trace := rfl

/-! ### setPending -/

@[simp] theorem setPending_params (s : State) : (setPending s).params = s.params := rfl
@[simp] theorem setPending_pending (s : State) : (setPending s).pending = true := rfl
@[simp] theorem setPending_idx (s : State) : (setPending s).idx = s.idx := rfl
@[simp] theorem setPending_mode (s : State) : (setPending s).mode = s.mode := rfl
@[simp] theorem setPending_latch (s : State) : (setPending s).latch = s.latch := rfl
@[simp] theorem setPending_clock (s : State) : (setPending s).clock = s.clock := rfl
@[simp] theorem setPending_data (s : State) : (setPending s).data = s.data := rfl
@[simp] theorem setPending_shiftChain (s : State) : (setPending s).shiftChain = s.shiftChain := rfl
@[simp] theorem setPending_storage (s : State) : (setPending s).storage = s.storage := rfl
@[simp] theorem setPending_lphase (s : State) : (setPending s).lphase = s.lphase := rfl
@[simp] theorem setPending_seconds (s : State) : (setPending s).seconds = s.seconds := rfl
@[simp] theorem setPending_prevReset (s : State) : (setPending s).prevReset = s.prevReset := rfl
@[simp] theorem setPending_commits (s : State) : (setPending s).commits = s.commits := rfl
@[simp] theorem setPending_faults (s : State) : (setPending s).faults = s.faults := rfl
@[simp] theorem setPending_refused (s : State) : (setPending s).refused = s.refused := rfl
@[simp] theorem setPending_returns (s : State) : (setPending s).returns = s.returns := rfl
@[simp] theorem setPending_traceKind (s : State) : (setPending s).traceKind = s.traceKind := rfl
@[simp] theorem setPending_trace (s : State) : (setPending s).trace = s.trace := rfl

/-! ### clearPending -/

@[simp] theorem clearPending_params (s : State) : (clearPending s).params = s.params := rfl
@[simp] theorem clearPending_pending (s : State) : (clearPending s).pending = false := rfl
@[simp] theorem clearPending_idx (s : State) : (clearPending s).idx = s.idx := rfl
@[simp] theorem clearPending_mode (s : State) : (clearPending s).mode = s.mode := rfl
@[simp] theorem clearPending_latch (s : State) : (clearPending s).latch = s.latch := rfl
@[simp] theorem clearPending_clock (s : State) : (clearPending s).clock = s.clock := rfl
@[simp] theorem clearPending_data (s : State) : (clearPending s).data = s.data := rfl
@[simp] theorem clearPending_shiftChain (s : State) : (clearPending s).shiftChain = s.shiftChain := rfl
@[simp] theorem clearPending_storage (s : State) : (clearPending s).storage = s.storage := rfl
@[simp] theorem clearPending_lphase (s : State) : (clearPending s).lphase = s.lphase := rfl
@[simp] theorem clearPending_seconds (s : State) : (clearPending s).seconds = s.seconds := rfl
@[simp] theorem clearPending_prevReset (s : State) : (clearPending s).prevReset = s.prevReset := rfl
@[simp] theorem clearPending_commits (s : State) : (clearPending s).commits = s.commits := rfl
@[simp] theorem clearPending_faults (s : State) : (clearPending s).faults = s.faults := rfl
@[simp] theorem clearPending_refused (s : State) : (clearPending s).refused = s.refused := rfl
@[simp] theorem clearPending_returns (s : State) : (clearPending s).returns = s.returns := rfl
@[simp] theorem clearPending_traceKind (s : State) : (clearPending s).traceKind = s.traceKind := rfl
@[simp] theorem clearPending_trace (s : State) : (clearPending s).trace = s.trace := rfl

/-! ### setTrace -/

@[simp] theorem setTrace_params (t : List TraceItem) (s : State) : (setTrace t s).params = s.params := rfl
@[simp] theorem setTrace_pending (t : List TraceItem) (s : State) : (setTrace t s).pending = s.pending := rfl
@[simp] theorem setTrace_idx (t : List TraceItem) (s : State) : (setTrace t s).idx = s.idx := rfl
@[simp] theorem setTrace_mode (t : List TraceItem) (s : State) : (setTrace t s).mode = s.mode := rfl
@[simp] theorem setTrace_latch (t : List TraceItem) (s : State) : (setTrace t s).latch = s.latch := rfl
@[simp] theorem setTrace_clock (t : List TraceItem) (s : State) : (setTrace t s).clock = s.clock := rfl
@[simp] theorem setTrace_data (t : List TraceItem) (s : State) : (setTrace t s).data = s.data := rfl
@[simp] theorem setTrace_shiftChain (t : List TraceItem) (s : State) : (setTrace t s).shiftChain = s.shiftChain := rfl
@[simp] theorem setTrace_storage (t : List TraceItem) (s : State) : (setTrace t s).storage = s.storage := rfl
@[simp] theorem setTrace_lphase (t : List TraceItem) (s : State) : (setTrace t s).lphase = s.lphase := rfl
@[simp] theorem setTrace_seconds (t : List TraceItem) (s : State) : (setTrace t s).seconds = s.seconds := rfl
@[simp] theorem setTrace_prevReset (t : List TraceItem) (s : State) : (setTrace t s).prevReset = s.prevReset := rfl
@[simp] theorem setTrace_commits (t : List TraceItem) (s : State) : (setTrace t s).commits = s.commits := rfl
@[simp] theorem setTrace_faults (t : List TraceItem) (s : State) : (setTrace t s).faults = s.faults := rfl
@[simp] theorem setTrace_refused (t : List TraceItem) (s : State) : (setTrace t s).refused = s.refused := rfl
@[simp] theorem setTrace_returns (t : List TraceItem) (s : State) : (setTrace t s).returns = s.returns := rfl
@[simp] theorem setTrace_traceKind (t : List TraceItem) (s : State) : (setTrace t s).traceKind = s.traceKind := rfl
@[simp] theorem setTrace_trace (t : List TraceItem) (s : State) : (setTrace t s).trace = t := rfl

/-! ### shiftEdge -/

@[simp] theorem shiftEdge_params (s : State) : (shiftEdge s).params = s.params := rfl
@[simp] theorem shiftEdge_pending (s : State) : (shiftEdge s).pending = s.pending := rfl
@[simp] theorem shiftEdge_idx (s : State) : (shiftEdge s).idx = s.idx := rfl
@[simp] theorem shiftEdge_mode (s : State) : (shiftEdge s).mode = s.mode := rfl
@[simp] theorem shiftEdge_latch (s : State) : (shiftEdge s).latch = s.latch := rfl
@[simp] theorem shiftEdge_clock (s : State) : (shiftEdge s).clock = s.clock := rfl
@[simp] theorem shiftEdge_data (s : State) : (shiftEdge s).data = s.data := rfl
@[simp] theorem shiftEdge_shiftChain (s : State) : (shiftEdge s).shiftChain = shiftIn s.shiftChain s.data := rfl
@[simp] theorem shiftEdge_storage (s : State) : (shiftEdge s).storage = s.storage := rfl
@[simp] theorem shiftEdge_lphase (s : State) : (shiftEdge s).lphase = s.lphase := rfl
@[simp] theorem shiftEdge_seconds (s : State) : (shiftEdge s).seconds = s.seconds := rfl
@[simp] theorem shiftEdge_prevReset (s : State) : (shiftEdge s).prevReset = s.prevReset := rfl
@[simp] theorem shiftEdge_commits (s : State) : (shiftEdge s).commits = s.commits := rfl
@[simp] theorem shiftEdge_faults (s : State) : (shiftEdge s).faults = s.faults := rfl
@[simp] theorem shiftEdge_refused (s : State) : (shiftEdge s).refused = s.refused := rfl
@[simp] theorem shiftEdge_returns (s : State) : (shiftEdge s).returns = s.returns := rfl
@[simp] theorem shiftEdge_traceKind (s : State) : (shiftEdge s).traceKind = s.traceKind := rfl
@[simp] theorem shiftEdge_trace (s : State) : (shiftEdge s).trace = s.trace := rfl

/-! ### latchEdge -/

@[simp] theorem latchEdge_params (s : State) : (latchEdge s).params = s.params := rfl
@[simp] theorem latchEdge_pending (s : State) : (latchEdge s).pending = s.pending := rfl
@[simp] theorem latchEdge_idx (s : State) : (latchEdge s).idx = s.idx := rfl
@[simp] theorem latchEdge_mode (s : State) : (latchEdge s).mode = s.mode := rfl
@[simp] theorem latchEdge_latch (s : State) : (latchEdge s).latch = s.latch := rfl
@[simp] theorem latchEdge_clock (s : State) : (latchEdge s).clock = s.clock := rfl
@[simp] theorem latchEdge_data (s : State) : (latchEdge s).data = s.data := rfl
@[simp] theorem latchEdge_shiftChain (s : State) : (latchEdge s).shiftChain = s.shiftChain := rfl
@[simp] theorem latchEdge_storage (s : State) : (latchEdge s).storage = s.shiftChain := rfl
@[simp] theorem latchEdge_lphase (s : State) : (latchEdge s).lphase = s.lphase := rfl
@[simp] theorem latchEdge_seconds (s : State) : (latchEdge s).seconds = s.seconds := rfl
@[simp] theorem latchEdge_prevReset (s : State) : (latchEdge s).prevReset = s.prevReset := rfl
@[simp] theorem latchEdge_commits (s : State) : (latchEdge s).commits = s.commits ++ [s.shiftChain] := rfl
@[simp] theorem latchEdge_faults (s : State) : (latchEdge s).faults = s.faults := rfl
@[simp] theorem latchEdge_refused (s : State) : (latchEdge s).refused = s.refused := rfl
@[simp] theorem latchEdge_returns (s : State) : (latchEdge s).returns = s.returns := rfl
@[simp] theorem latchEdge_traceKind (s : State) : (latchEdge s).traceKind = s.traceKind := rfl
@[simp] theorem latchEdge_trace (s : State) : (latchEdge s).trace = s.trace := rfl

/-! ### setPin .latch -/

@[simp] theorem setPin_latch_params (v : Bit) (s : State) : (setPin .latch v s).params = s.params := rfl
@[simp] theorem setPin_latch_pending (v : Bit) (s : State) : (setPin .latch v s).pending = s.pending := rfl
@[simp] theorem setPin_latch_idx (v : Bit) (s : State) : (setPin .latch v s).idx = s.idx := rfl
@[simp] theorem setPin_latch_mode (v : Bit) (s : State) : (setPin .latch v s).mode = s.mode := rfl
@[simp] theorem setPin_latch_latch (v : Bit) (s : State) : (setPin .latch v s).latch = v := rfl
@[simp] theorem setPin_latch_clock (v : Bit) (s : State) : (setPin .latch v s).clock = s.clock := rfl
@[simp] theorem setPin_latch_data (v : Bit) (s : State) : (setPin .latch v s).data = s.data := rfl
@[simp] theorem setPin_latch_shiftChain (v : Bit) (s : State) : (setPin .latch v s).shiftChain = s.shiftChain := rfl
@[simp] theorem setPin_latch_storage (v : Bit) (s : State) : (setPin .latch v s).storage = s.storage := rfl
@[simp] theorem setPin_latch_lphase (v : Bit) (s : State) : (setPin .latch v s).lphase = s.lphase := rfl
@[simp] theorem setPin_latch_seconds (v : Bit) (s : State) : (setPin .latch v s).seconds = s.seconds := rfl
@[simp] theorem setPin_latch_prevReset (v : Bit) (s : State) : (setPin .latch v s).prevReset = s.prevReset := rfl
@[simp] theorem setPin_latch_commits (v : Bit) (s : State) : (setPin .latch v s).commits = s.commits := rfl
@[simp] theorem setPin_latch_faults (v : Bit) (s : State) : (setPin .latch v s).faults = s.faults := rfl
@[simp] theorem setPin_latch_refused (v : Bit) (s : State) : (setPin .latch v s).refused = s.refused := rfl
@[simp] theorem setPin_latch_returns (v : Bit) (s : State) : (setPin .latch v s).returns = s.returns := rfl
@[simp] theorem setPin_latch_traceKind (v : Bit) (s : State) : (setPin .latch v s).traceKind = s.traceKind := rfl
@[simp] theorem setPin_latch_trace (v : Bit) (s : State) : (setPin .latch v s).trace = s.trace := rfl

/-! ### setPin .clock -/

@[simp] theorem setPin_clock_params (v : Bit) (s : State) : (setPin .clock v s).params = s.params := rfl
@[simp] theorem setPin_clock_pending (v : Bit) (s : State) : (setPin .clock v s).pending = s.pending := rfl
@[simp] theorem setPin_clock_idx (v : Bit) (s : State) : (setPin .clock v s).idx = s.idx := rfl
@[simp] theorem setPin_clock_mode (v : Bit) (s : State) : (setPin .clock v s).mode = s.mode := rfl
@[simp] theorem setPin_clock_latch (v : Bit) (s : State) : (setPin .clock v s).latch = s.latch := rfl
@[simp] theorem setPin_clock_clock (v : Bit) (s : State) : (setPin .clock v s).clock = v := rfl
@[simp] theorem setPin_clock_data (v : Bit) (s : State) : (setPin .clock v s).data = s.data := rfl
@[simp] theorem setPin_clock_shiftChain (v : Bit) (s : State) : (setPin .clock v s).shiftChain = s.shiftChain := rfl
@[simp] theorem setPin_clock_storage (v : Bit) (s : State) : (setPin .clock v s).storage = s.storage := rfl
@[simp] theorem setPin_clock_lphase (v : Bit) (s : State) : (setPin .clock v s).lphase = s.lphase := rfl
@[simp] theorem setPin_clock_seconds (v : Bit) (s : State) : (setPin .clock v s).seconds = s.seconds := rfl
@[simp] theorem setPin_clock_prevReset (v : Bit) (s : State) : (setPin .clock v s).prevReset = s.prevReset := rfl
@[simp] theorem setPin_clock_commits (v : Bit) (s : State) : (setPin .clock v s).commits = s.commits := rfl
@[simp] theorem setPin_clock_faults (v : Bit) (s : State) : (setPin .clock v s).faults = s.faults := rfl
@[simp] theorem setPin_clock_refused (v : Bit) (s : State) : (setPin .clock v s).refused = s.refused := rfl
@[simp] theorem setPin_clock_returns (v : Bit) (s : State) : (setPin .clock v s).returns = s.returns := rfl
@[simp] theorem setPin_clock_traceKind (v : Bit) (s : State) : (setPin .clock v s).traceKind = s.traceKind := rfl
@[simp] theorem setPin_clock_trace (v : Bit) (s : State) : (setPin .clock v s).trace = s.trace := rfl

/-! ### setPin .data -/

@[simp] theorem setPin_data_params (v : Bit) (s : State) : (setPin .data v s).params = s.params := rfl
@[simp] theorem setPin_data_pending (v : Bit) (s : State) : (setPin .data v s).pending = s.pending := rfl
@[simp] theorem setPin_data_idx (v : Bit) (s : State) : (setPin .data v s).idx = s.idx := rfl
@[simp] theorem setPin_data_mode (v : Bit) (s : State) : (setPin .data v s).mode = s.mode := rfl
@[simp] theorem setPin_data_latch (v : Bit) (s : State) : (setPin .data v s).latch = s.latch := rfl
@[simp] theorem setPin_data_clock (v : Bit) (s : State) : (setPin .data v s).clock = s.clock := rfl
@[simp] theorem setPin_data_data (v : Bit) (s : State) : (setPin .data v s).data = v := rfl
@[simp] theorem setPin_data_shiftChain (v : Bit) (s : State) : (setPin .data v s).shiftChain = s.shiftChain := rfl
@[simp] theorem setPin_data_storage (v : Bit) (s : State) : (setPin .data v s).storage = s.storage := rfl
@[simp] theorem setPin_data_lphase (v : Bit) (s : State) : (setPin .data v s).lphase = s.lphase := rfl
@[simp] theorem setPin_data_seconds (v : Bit) (s : State) : (setPin .data v s).seconds = s.seconds := rfl
@[simp] theorem setPin_data_prevReset (v : Bit) (s : State) : (setPin .data v s).prevReset = s.prevReset := rfl
@[simp] theorem setPin_data_commits (v : Bit) (s : State) : (setPin .data v s).commits = s.commits := rfl
@[simp] theorem setPin_data_faults (v : Bit) (s : State) : (setPin .data v s).faults = s.faults := rfl
@[simp] theorem setPin_data_refused (v : Bit) (s : State) : (setPin .data v s).refused = s.refused := rfl
@[simp] theorem setPin_data_returns (v : Bit) (s : State) : (setPin .data v s).returns = s.returns := rfl
@[simp] theorem setPin_data_traceKind (v : Bit) (s : State) : (setPin .data v s).traceKind = s.traceKind := rfl
@[simp] theorem setPin_data_trace (v : Bit) (s : State) : (setPin .data v s).trace = s.trace := rfl

end Sys2Proof.Machine
end

