-- ==== Sys2Proof/Laws/Faults.lean ====
section
/-! SUPPORT. Raising a fault and refusing: what is reported, what is left, and the listing of the set of faults. -/

namespace Sys2Proof.Machine

@[simp] theorem toFault_entry (e : FaultEntry) (t : State) : (e.toFault t).entry = e := by cases e <;> rfl

@[simp] theorem toFault_after (e : FaultEntry) (t : State) : (e.toFault t).after = t := by cases e <;> rfl

@[simp] theorem outcomeState_next (t s : State) : outcomeState (.next t) s = t := rfl

@[simp] theorem outcomeState_raise (e : FaultEntry) (t s : State) :
    outcomeState (raise e t) s = recordFault e t := by simp [outcomeState, raise]

@[simp] theorem raise_ne_next (e : FaultEntry) (s t : State) : raise e s ≠ .next t := by simp [raise]

@[simp] theorem refuse_ne_next (k : State → Refusal) (s t : State) : refuse k s ≠ .next t := by simp [refuse]

theorem mem_insertFault (e f : FaultEntry) (l : List FaultEntry) : f ∈ insertFault e l ↔ f = e ∨ f ∈ l := by
  induction l with
  | nil => simp [insertFault]
  | cons g l ih =>
    by_cases h : e = g
    · subst h; simp [insertFault]
    · by_cases h' : e.lt g = true
      · simp [insertFault, h, h']
      · simp [insertFault, h, h', ih]; tauto

theorem eq_of_code_info {e f : FaultEntry} (hc : e.code = f.code) (hi : e.info = f.info) : e = f := by
  cases e <;> cases f <;> simp_all [FaultEntry.code, FaultEntry.info]
  · exact BitVec.eq_of_toNat_eq hi
  · rename_i a b; revert hi; cases a <;> cases b <;> simp
  · exact BitVec.eq_of_toNat_eq hi

theorem lt_of_not_lt (e f : FaultEntry) (hne : e ≠ f) (h : ¬ e.lt f = true) : f.lt e = true := by
  have hd : ¬ (e.code = f.code ∧ e.info = f.info) := fun ⟨hc, hi⟩ => hne (eq_of_code_info hc hi)
  simp only [FaultEntry.lt, Bool.or_eq_true, Bool.and_eq_true, decide_eq_true_eq, beq_iff_eq] at h ⊢
  omega

theorem faultsWf_insertFault (e : FaultEntry) (l : List FaultEntry) (h : faultsWf l = true) :
    faultsWf (insertFault e l) = true := by
  induction l with
  | nil => simp [insertFault, faultsWf]
  | cons f l ih =>
    by_cases he : e = f
    · subst he; simpa [insertFault] using h
    by_cases hlt : e.lt f = true
    · simpa [insertFault, he, hlt, faultsWf] using h
    have hfe := lt_of_not_lt e f he hlt
    cases l with
    | nil => simp [insertFault, he, hlt, faultsWf, hfe]
    | cons g l =>
      have hfg : f.lt g = true := by simp [faultsWf] at h; exact h.1
      have hgl : faultsWf (g :: l) = true := by simp [faultsWf] at h; exact h.2
      have hin := ih hgl
      by_cases heg : e = g
      · subst heg; simp [insertFault, he, hlt, faultsWf, hfe]; exact hgl
      by_cases hltg : e.lt g = true
      · simp [insertFault, he, hlt, heg, hltg, faultsWf, hfe]; simpa [faultsWf] using hgl
      · simp [insertFault, he, hlt, heg, hltg, faultsWf, hfg] at hin ⊢; exact hin

end Sys2Proof.Machine
end

