-- ==== Sys2Proof/Laws/Memory.lean ====
section
/-! SUPPORT. The two address spaces: their reads, and that their listings are in canonical form. -/

namespace Sys2Proof.Machine

theorem memReadSeg_mapped (s : State) (a : BitVec 4) (h : a.toNat < 10) :
    memReadSeg s a = some s.params.segTable[a.toNat] := by
  simp [memReadSeg, show a.toNat ≤ 9 by omega]

theorem memReadSeg_unmapped (s : State) (a : BitVec 4) (h : 9 < a.toNat) : memReadSeg s a = none := by
  simp [memReadSeg, show ¬ a.toNat ≤ 9 by omega]

theorem memReadSeg_congr {s t : State} (h : t.params = s.params) (a : BitVec 4) : memReadSeg t a = memReadSeg s a := by
  simp only [memReadSeg, h]

theorem memReadSel_congr {s t : State} (h : t.params = s.params) (p : BitVec 2) : memReadSel t p = memReadSel s p := by
  simp only [memReadSel, h]

theorem memReadSel_ofFin (s : State) (p : Fin 4) : memReadSel s (BitVec.ofFin p) = s.params.selTable[p] := rfl

theorem zip_range_wf (n k : Nat) (l : List Bits8) : Memory.wf ((List.range' k n).zip l) = true := by
  induction n generalizing k l with
  | zero => simp [Memory.wf]
  | succ n ih =>
    cases l with
    | nil => simp [Memory.wf]
    | cons x l =>
      have := ih (k + 1) l
      cases n with
      | zero => simp [Memory.wf, List.range'_succ]
      | succ n =>
        cases l with
        | nil => simp [Memory.wf, List.range'_succ]
        | cons y l => simpa [Memory.wf, List.range'_succ] using this

theorem segMemory_wf (s : State) : (segMemory s).wf = true := by
  rw [segMemory, List.range_eq_range']; exact zip_range_wf _ _ _

theorem selMemory_wf (s : State) : (selMemory s).wf = true := by
  rw [selMemory, List.range_eq_range']; exact zip_range_wf _ _ _

theorem segMemory_congr {s t : State} (h : t.params = s.params) : segMemory t = segMemory s := by
  simp only [segMemory, h]

theorem selMemory_congr {s t : State} (h : t.params = s.params) : selMemory t = selMemory s := by
  simp only [selMemory, h]

end Sys2Proof.Machine
end

