-- ==== Sys2Proof/Laws/Operands.lean ====
section
/-! SUPPORT. The parameter checks, the range of the digit dispatch, the index and the counter. -/

namespace Sys2Proof.Machine

theorem failedCheck_eq_none_iff (P : Params) : P.failedCheck = none ↔ P.wf = true := by
  unfold Params.failedCheck Params.wf
  cases P.oneDigit <;> cases P.distinctLines <;> cases P.indFree <;> simp

theorem timeDigit_le_nine (p : Fin 4) (n : Nat) (h : n ≤ 5999) : timeDigit p n ≤ 9 := by
  fin_cases p <;> simp [timeDigit] <;> omega

theorem voltDigit_le_nine (p : Fin 4) (n : Nat) (h : n ≤ 9999) : voltDigit p n ≤ 9 := by
  fin_cases p <;> simp [voltDigit, decompose] <;> omega

theorem digitValue_le_nine (mode : DisplayMode) (p : Fin 4) (n mv : Nat) (hn : n ≤ 5999) (hmv : mv ≤ 9999) :
    digitValue mode p n mv ≤ 9 := by
  cases mode
  · exact timeDigit_le_nine p n hn
  · exact voltDigit_le_nine p mv hmv

theorem nextIdx_eq (p : Fin 4) : nextIdx p = p + 1 := by fin_cases p <;> rfl

theorem tickSeconds_eq (n : Nat) : tickSeconds n = if n = 5999 then 0 else n + 1 := rfl

theorem tickSeconds_le (n : Nat) (h : n ≤ 5999) : tickSeconds n ≤ 5999 := by
  rw [tickSeconds_eq]; split <;> omega

end Sys2Proof.Machine
end

