-- ==== Sys2Proof/Laws/PerInstr.lean ====
section
/-! SUPPORT. The family RowMatch: one lemma for each constructor of Instr. -/

/-- A row that fixes the top byte only. -/
theorem Sys2Proof.opWord_and_top_byte (op a b : Sys2Proof.Bits8) : Sys2Proof.opWord op a b &&& 0xFF0000 = Sys2Proof.opWord op 0 0 := by
  rw [Sys2Proof.opWord, show (0xFF0000 : Sys2Proof.OpWord) = 0xFF#8 ++ 0#8 ++ 0#8 from rfl, BitVec.and_append, BitVec.and_append,
    BitVec.and_zero, BitVec.and_zero, show (0xFF#8) = BitVec.allOnes 8 from rfl, BitVec.and_allOnes]
  rfl

namespace Sys2Proof.Laws.RowMatch

/-- The encoded word of an operation carries its row's fixed bits, and the row is one of the opcode map's
(30_encoding.md R77). -/
def Statement (i : Instr) : Prop := i.row ∈ opcodeTable ∧ encode i &&& i.row.mask = i.row.pattern

theorem segrd (d : BitVec 4) : Statement (.segrd d) := ⟨List.mem_of_getElem? (i := 0) rfl, by revert d; decide⟩
theorem selrd (p : BitVec 2) : Statement (.selrd p) := ⟨List.mem_of_getElem? (i := 1) rfl, by revert p; decide⟩
theorem emit (segments digitSelect : Bits8) : Statement (.emit segments digitSelect) :=
  ⟨List.mem_of_getElem? (i := 2) rfl, opWord_and_top_byte 0x03 segments digitSelect⟩
theorem pinwLatch (v : Bit) : Statement (.pinwLatch v) := ⟨List.mem_of_getElem? (i := 3) rfl, by cases v <;> rfl⟩
theorem pinwClock (v : Bit) : Statement (.pinwClock v) := ⟨List.mem_of_getElem? (i := 4) rfl, by cases v <;> rfl⟩
theorem pinwData (v : Bit) : Statement (.pinwData v) := ⟨List.mem_of_getElem? (i := 5) rfl, by cases v <;> rfl⟩
theorem refresh : Statement .refresh := ⟨List.mem_of_getElem? (i := 6) rfl, by decide⟩
theorem render (mv : Bits16) : Statement (.render mv) :=
  ⟨List.mem_of_getElem? (i := 7) rfl, opWord_and_top_byte 0x11 (mv.extractLsb' 8 8) (mv.extractLsb' 0 8)⟩
theorem sectick : Statement .sectick := ⟨List.mem_of_getElem? (i := 8) rfl, by decide⟩
theorem poll (r m : Bit) : Statement (.poll r m) := ⟨List.mem_of_getElem? (i := 9) rfl, by cases r <;> cases m <;> rfl⟩

end Sys2Proof.Laws.RowMatch
end

