-- ==== Sys2Proof/Laws/Words.lean ====
section
/-! SUPPORT. Words and cells: what each bit of an emit word and each cell of a shifted word is. -/

namespace Sys2Proof.Machine

@[simp] theorem ofBits_getElem (w : Bits16) (i : Nat) (h : i < 16) : (ofBits w)[i] = .known (w.getLsbD i) := by
  simp [ofBits, BitVec.getLsbD_eq_getElem h]

theorem shiftIn_getElem_zero (chain : Cells16) (b : Bit) : (shiftIn chain b)[0] = .known b := by
  simp [shiftIn]

theorem shiftIn_getElem_succ (chain : Cells16) (b : Bit) (i : Nat) (h : i + 1 < 16) :
    (shiftIn chain b)[i + 1] = chain[i] := by
  simp [shiftIn]

theorem shiftIn_getElem (chain : Cells16) (b : Bit) (i : Nat) (h : i < 16) :
    (shiftIn chain b)[i] = if i = 0 then .known b else chain[i - 1] := by
  simp [shiftIn]

/-- What a run of shifts leaves in each cell: the bits shifted in, last one lowest, then the old cells moved up
(41_serial_sequencer.md R126). -/
theorem foldl_shiftIn_getElem (bs : List Bit) (chain : Cells16) (i : Nat) (h : i < 16) :
    (bs.foldl shiftIn chain)[i] =
      if hi : i < bs.length then .known bs[bs.length - 1 - i] else chain[i - bs.length] := by
  induction bs using List.reverseRecOn generalizing i with
  | nil => simp
  | append_singleton bs b ih =>
    rw [List.foldl_append, List.foldl_cons, List.foldl_nil, shiftIn_getElem _ _ i h]
    cases i with
    | zero => simp
    | succ j =>
      rw [if_neg (by omega)]
      simp only [Nat.add_sub_cancel, ih j (by omega), List.length_append, List.length_singleton]
      by_cases hj : j < bs.length
      · rw [dif_pos hj, dif_pos (by omega), List.getElem_append_left (by omega)]
        congr 2; omega
      · rw [dif_neg hj, dif_neg (by omega)]
        congr 1; omega

/-- A one-hot byte (00_scope.md R8). -/
theorem oneHot_getLsbD (i b : Fin 8) : (1#8 <<< i.val).getLsbD b.val = decide (b = i) := by
  revert i b; decide

theorem cells_ext {v w : Cells16} (h : ∀ (i : Nat) (hi : i < 16), v[i] = w[i]) : v = w :=
  Vector.ext h

theorem emitWord_low (a b : Bits8) (i : Nat) (h : i < 8) : (emitWord a b).getLsbD i = b.getLsbD i := by
  exact (BitVec.getLsbD_append (x := a) (y := b)).trans (by simp [h])

theorem emitWord_high (a b : Bits8) (i : Nat) : (emitWord a b).getLsbD (8 + i) = a.getLsbD i := by
  exact (BitVec.getLsbD_append (x := a) (y := b)).trans (by simp)

theorem emitWord_split (E : Bits16) : emitWord (E.extractLsb' 8 8) (E.extractLsb' 0 8) = E := by
  apply BitVec.eq_of_getLsbD_eq
  intro i hi
  rcases Nat.lt_or_ge i 8 with h | h
  · simp [emitWord_low _ _ _ h, h]
  · obtain ⟨j, rfl⟩ := Nat.exists_eq_add_of_le h
    simp [emitWord_high]; omega

end Sys2Proof.Machine
end

