-- ==== Sys2Proof/Laws/Serial.lean ====
section
/-! SUPPORT. One lemma for each thing a wire write and an emit can do. -/

namespace Sys2Proof.Machine

theorem pinWrite_of_no_edge (n : Pin) (v : Bit) (s : State) (h : pinLevel n s = true ∨ v = false) :
    pinWrite n v s = setPin n v s := by
  rcases h with h | h <;> simp [pinWrite, h]

theorem pinWrite_clock_rise (s : State) (h : s.clock = false) :
    pinWrite .clock true s = shiftEdge (setPin .clock true s) := by simp [pinWrite, pinLevel, h, risingEdge]

theorem pinWrite_latch_rise (s : State) (h : s.latch = false) :
    pinWrite .latch true s = latchEdge (setPin .latch true s) := by simp [pinWrite, pinLevel, h, risingEdge]

theorem pinWrite_data (v : Bit) (s : State) : pinWrite .data v s = setPin .data v s := by
  unfold pinWrite risingEdge; split <;> rfl

/-- The state an emit of the word `E` ends in (41_serial_sequencer.md R124). -/
theorem emitOp_of_clock_low (a b : Bits8) (s : State) (h : s.clock = false) :
    emitOp a b s = .next { s with
      shiftChain := ofBits (emitWord a b), storage := ofBits (emitWord a b)
      commits := s.commits ++ [ofBits (emitWord a b)]
      latch := true, clock := false, data := b.getLsbD 0 } := by
  simp only [emitOp, setPin, commitWord, setShift, h, Bool.false_eq_true, if_false, emitWord_low a b 0 (by decide)]

theorem emitOp_of_clock_high (a b : Bits8) (s : State) (h : s.clock = true) :
    emitOp a b s = raise (.clockNotIdle true) s := by simp [emitOp, h]

end Sys2Proof.Machine
end

