-- ==== Sys2Proof/Laws/Program.lean ====
section
/-! SUPPORT. Lists of operations: how they run one after another. -/

namespace Sys2Proof.Machine

theorem runOps_append (xs ys : List Instr) (s t : State) (h : runOps xs s = .next t) :
    runOps (xs ++ ys) s = runOps ys t := by
  induction xs generalizing s with
  | nil => cases h; rfl
  | cons i xs ih =>
    simp only [runOps, List.cons_append] at h ⊢
    cases hi : exec i s <;> simp only [hi] at h ⊢
    · exact ih _ h
    · cases h
    · cases h

/-- One bit of an emit from CLOCK = 0 (41_serial_sequencer.md R121, R126). -/
theorem runOps_shiftbit (b : Bit) (s : State) (h : s.clock = false) :
    runOps (shiftbit b) s = .next { s with data := b, shiftChain := shiftIn s.shiftChain b } := by
  simp [runOps, shiftbit, exec, execPinwData, execPinwClock, pinWrite, pinLevel, setPin, risingEdge,
    shiftEdge, setShift, h]

/-- Ticks change only `seconds` (43_environment.md R180). -/
theorem runOps_sectick (n : Nat) (s : State) :
    runOps (List.replicate n .sectick) s = .next (setSeconds (tickSeconds^[n] s.seconds) s) := by
  induction n generalizing s with
  | zero => rfl
  | succ n ih =>
    simp only [List.replicate_succ, runOps, exec, execSectick]
    rw [ih]
    rfl

end Sys2Proof.Machine
end

