-- ==== Sys2Proof/Laws/Render.lean ====
section
/-! SUPPORT. Everything a RENDER can do (42_tdm_scheduler.md R152), said once. -/

namespace Sys2Proof.Machine

theorem execRender_mvRange (mv : Bits16) (s : State) (h : 9999 < mv.toNat) :
    execRender mv s = raise (.mvRange mv) s := by simp [execRender, Config.mvMax, h]

theorem execRender_secondsRange (mv : Bits16) (s : State) (h : mv.toNat ≤ 9999) (hs : 5999 < s.seconds) :
    execRender mv s = raise (.secondsRange s.seconds) s := by
  simp [execRender, Config.mvMax, Config.secMod, Nat.not_lt.mpr h, hs]

theorem execRender_idle (mv : Bits16) (s : State) (h : mv.toNat ≤ 9999) (hs : s.seconds ≤ 5999)
    (hp : s.pending = false) : execRender mv s = .next (setPhase .atPoll s) := by
  simp [execRender, Config.mvMax, Config.secMod, Nat.not_lt.mpr h, Nat.not_lt.mpr hs, hp]

theorem execRender_pending (mv : Bits16) (s : State) (h : mv.toNat ≤ 9999) (hs : s.seconds ≤ 5999)
    (hp : s.pending = true) : execRender mv s = renderDigit mv (clearPending (setPhase .atPoll s)) := by
  simp [execRender, Config.mvMax, Config.secMod, Nat.not_lt.mpr h, Nat.not_lt.mpr hs, hp]

/-- The stored pattern of the digit a render shows (42_tdm_scheduler.md R152): it is always mapped (R151). -/
theorem storedPattern_exists (s : State) (mv : Bits16) (h : mv.toNat ≤ 9999) (hs : s.seconds ≤ 5999) :
    ∃ stored : Bits8, s.params.segTable[digitValue s.mode s.idx s.seconds mv.toNat]? = some stored ∧
      memReadSeg s (BitVec.ofNat 4 (digitValue s.mode s.idx s.seconds mv.toNat)) = some stored := by
  have hd := digitValue_le_nine s.mode s.idx s.seconds mv.toNat hs h
  generalize digitValue s.mode s.idx s.seconds mv.toNat = d at hd
  have hn : (BitVec.ofNat 4 d).toNat = d := by simp; omega
  refine ⟨s.params.segTable[d]'(by omega), by simp [show d < 10 by omega], ?_⟩
  rw [memReadSeg_mapped s _ (by omega)]
  simp only [hn]

theorem renderDigit_of_clock_low (mv : Bits16) (s : State) (stored : Bits8) (hc : s.clock = false)
    (hm : memReadSeg s (BitVec.ofNat 4 (digitValue s.mode s.idx s.seconds mv.toNat)) = some stored) :
    renderDigit mv s = .next { s with
      shiftChain := ofBits (frameWord s.params s.mode s.idx stored), storage := ofBits (frameWord s.params s.mode s.idx stored)
      commits := s.commits ++ [ofBits (frameWord s.params s.mode s.idx stored)]
      latch := true, clock := false, data := s.params.selTable[s.idx].getLsbD 0, idx := nextIdx s.idx } := by
  simp only [renderDigit, hm, emitOp_of_clock_low _ _ s hc, memReadSel_ofFin]
  rfl

theorem renderDigit_of_clock_high (mv : Bits16) (s : State) (stored : Bits8) (hc : s.clock = true)
    (hm : memReadSeg s (BitVec.ofNat 4 (digitValue s.mode s.idx s.seconds mv.toNat)) = some stored) :
    renderDigit mv s = raise (.clockNotIdle true) s := by
  simp only [renderDigit, hm, emitOp_of_clock_high _ _ s hc]
  rfl

/-- A render that consumes a refresh (42_tdm_scheduler.md R152). -/
theorem execRender_consume (mv : Bits16) (s : State) (h : mv.toNat ≤ 9999) (hs : s.seconds ≤ 5999)
    (hp : s.pending = true) (hc : s.clock = false) :
    ∃ stored : Bits8, s.params.segTable[digitValue s.mode s.idx s.seconds mv.toNat]? = some stored ∧
      execRender mv s = .next { s with
        lphase := .atPoll, pending := false
        shiftChain := ofBits (frameWord s.params s.mode s.idx stored), storage := ofBits (frameWord s.params s.mode s.idx stored)
        commits := s.commits ++ [ofBits (frameWord s.params s.mode s.idx stored)]
        latch := true, clock := false, data := s.params.selTable[s.idx].getLsbD 0, idx := nextIdx s.idx } := by
  obtain ⟨stored, h1, h2⟩ := storedPattern_exists s mv h hs
  refine ⟨stored, h1, ?_⟩
  rw [execRender_pending mv s h hs hp, renderDigit_of_clock_low mv (clearPending (setPhase .atPoll s)) stored hc h2]
  rfl

theorem execRender_clockHigh (mv : Bits16) (s : State) (h : mv.toNat ≤ 9999) (hs : s.seconds ≤ 5999)
    (hp : s.pending = true) (hc : s.clock = true) :
    execRender mv s = raise (.clockNotIdle true) (clearPending (setPhase .atPoll s)) := by
  obtain ⟨stored, -, h2⟩ := storedPattern_exists s mv h hs
  rw [execRender_pending mv s h hs hp, renderDigit_of_clock_high mv (clearPending (setPhase .atPoll s)) stored hc h2]

/-- Everything a render can do (42_tdm_scheduler.md R152). -/
theorem execRender_cases (mv : Bits16) (s : State) :
    (9999 < mv.toNat ∧ execRender mv s = raise (.mvRange mv) s) ∨
    (mv.toNat ≤ 9999 ∧ 5999 < s.seconds ∧ execRender mv s = raise (.secondsRange s.seconds) s) ∨
    (mv.toNat ≤ 9999 ∧ s.seconds ≤ 5999 ∧ s.pending = false ∧ execRender mv s = .next (setPhase .atPoll s)) ∨
    (mv.toNat ≤ 9999 ∧ s.seconds ≤ 5999 ∧ s.pending = true ∧ s.clock = true ∧
      execRender mv s = raise (.clockNotIdle true) (clearPending (setPhase .atPoll s))) ∨
    (mv.toNat ≤ 9999 ∧ s.seconds ≤ 5999 ∧ s.pending = true ∧ s.clock = false ∧ ∃ stored : Bits8,
      s.params.segTable[digitValue s.mode s.idx s.seconds mv.toNat]? = some stored ∧
      execRender mv s = .next { s with
        lphase := .atPoll, pending := false
        shiftChain := ofBits (frameWord s.params s.mode s.idx stored), storage := ofBits (frameWord s.params s.mode s.idx stored)
        commits := s.commits ++ [ofBits (frameWord s.params s.mode s.idx stored)]
        latch := true, clock := false, data := s.params.selTable[s.idx].getLsbD 0, idx := nextIdx s.idx }) := by
  rcases Nat.lt_or_ge 9999 mv.toNat with h | h
  · exact .inl ⟨h, execRender_mvRange mv s h⟩
  rcases Nat.lt_or_ge 5999 s.seconds with hs | hs
  · exact .inr (.inl ⟨h, hs, execRender_secondsRange mv s h hs⟩)
  cases hp : s.pending
  · exact .inr (.inr (.inl ⟨h, hs, rfl, execRender_idle mv s h hs hp⟩))
  cases hc : s.clock
  · exact .inr (.inr (.inr (.inr ⟨h, hs, rfl, rfl, execRender_consume mv s h hs hp hc⟩)))
  · exact .inr (.inr (.inr (.inl ⟨h, hs, rfl, rfl, execRender_clockHigh mv s h hs hp hc⟩)))

end Sys2Proof.Machine
end

