-- ==== Sys2Proof/Laws/Step.lean ====
section
/-! SUPPORT. Everything a step and an operation can end in, and that none writes a ROM. -/

namespace Sys2Proof.Machine

/-- Everything the checks of a step can decide (60_exceptions.md R206). -/
theorem stepItem_cases (item : TraceItem) (s : State) :
    ((∃ e, decode item.word = .error e) ∧ stepItem item s = refuse (.undecodable item.word) s) ∨
    (∃ i, decode item.word = .ok i ∧
      ((admittedIn s.traceKind item.agent i = false ∧ stepItem item s = refuse (.wrongTraceKind item.word) s) ∨
       (admittedIn s.traceKind item.agent i = true ∧ inPhase s.lphase i = false ∧
        stepItem item s = refuse (.outOfPhase item.word) s) ∨
       (admittedIn s.traceKind item.agent i = true ∧ inPhase s.lphase i = true ∧ stepItem item s = exec i s))) := by
  cases hd : decode item.word with
  | error e => exact .inl ⟨⟨e, rfl⟩, by simp [stepItem, hd]⟩
  | ok i =>
    refine .inr ⟨i, rfl, ?_⟩
    cases ha : admittedIn s.traceKind item.agent i <;> cases hp : inPhase s.lphase i <;> simp [stepItem, hd, ha, hp]

/-- Everything a step can be: a refusal of the parameters, nothing at the end of the trace, or the next entry. -/
theorem step_cases (s : State) :
    (∃ c, s.params.failedCheck = some c ∧ step s = refuse (.badParams c) s) ∨
    (s.params.wf = true ∧ s.trace = [] ∧ step s = .next s) ∨
    (s.params.wf = true ∧ ∃ item rest, s.trace = item :: rest ∧ step s = stepItem item (setTrace rest s)) := by
  cases hf : s.params.failedCheck with
  | some c => exact .inl ⟨c, rfl, by simp [step, stepChecked, hf]⟩
  | none =>
    have hw := (failedCheck_eq_none_iff _).mp hf
    cases ht : s.trace with
    | nil => exact .inr (.inl ⟨hw, rfl, by simp [step, stepChecked, stepTrace, hf, ht]⟩)
    | cons item rest => exact .inr (.inr ⟨hw, item, rest, rfl, by simp [step, stepChecked, stepTrace, hf, ht]⟩)

theorem admittedIn_iff (k : TraceKind) (a : Agent) (i : Instr) :
    admittedIn k a i = true ↔ a = i.agent ∧ k = i.traceKind := by
  simp [admittedIn, @eq_comm _ a, @eq_comm _ k]

theorem inPhase_iff (l : LPhase) (i : Instr) : inPhase l i = true ↔ ∀ l', i.phase = some l' → l = l' := by
  unfold inPhase
  cases i.phase with
  | none => simp
  | some l' => simp [@eq_comm _ l]

/-- An operation never ends in a refusal. -/
theorem exec_ne_refused (i : Instr) (s : State) (r : Refusal) : exec i s ≠ .refused r := by
  cases i with
  | segrd d => simp only [exec, execSegrd]; split <;> simp [raise]
  | emit a b => cases h : s.clock <;> simp [exec, execEmit, emitOp, h, raise]
  | render mv =>
    rcases execRender_cases mv s with ⟨_, h⟩ | ⟨_, _, h⟩ | ⟨_, _, _, h⟩ | ⟨_, _, _, _, h⟩ | ⟨_, _, _, _, _, _, h⟩ <;>
      simp [exec, h, raise]
  | selrd p => simp [exec, execSelrd]
  | pinwLatch v => simp [exec, execPinwLatch]
  | pinwClock v => simp [exec, execPinwClock]
  | pinwData v => simp [exec, execPinwData]
  | refresh => simp [exec, execRefresh]
  | sectick => simp [exec, execSectick]
  | poll r m => simp [exec, execPoll]

@[simp] theorem setPin_params (n : Pin) (v : Bit) (s : State) : (setPin n v s).params = s.params := by cases n <;> rfl

@[simp] theorem pinWrite_params (n : Pin) (v : Bit) (s : State) : (pinWrite n v s).params = s.params := by
  unfold pinWrite risingEdge; split <;> cases n <;> rfl

/-- No operation writes the parameters, and so none writes a ROM (20_memory.md R52). -/
theorem outcomeState_exec_params (i : Instr) (s : State) : (outcomeState (exec i s) s).params = s.params := by
  cases i with
  | segrd d => simp only [exec, execSegrd]; split <;> simp
  | emit a b => cases h : s.clock <;> simp [exec, execEmit, emitOp, h]
  | render mv =>
    rcases execRender_cases mv s with ⟨_, h⟩ | ⟨_, _, h⟩ | ⟨_, _, _, h⟩ | ⟨_, _, _, _, h⟩ | ⟨_, _, _, _, _, _, h⟩ <;>
      simp [exec, h]
  | selrd p => simp [exec, execSelrd]
  | pinwLatch v => simp [exec, execPinwLatch]
  | pinwClock v => simp [exec, execPinwClock]
  | pinwData v => simp [exec, execPinwData]
  | refresh => simp [exec, execRefresh]
  | sectick => simp [exec, execSectick]
  | poll r m => simp only [exec, execPoll, outcomeState_next]; split <;> simp

/-- Every operation keeps the canonical form of both address spaces, since it changes neither (20_memory.md R52). -/
theorem exec_keeps_memory (i : Instr) (s : State) :
    segMemory (outcomeState (exec i s) s) = segMemory s ∧ selMemory (outcomeState (exec i s) s) = selMemory s :=
  ⟨segMemory_congr (outcomeState_exec_params i s), selMemory_congr (outcomeState_exec_params i s)⟩

theorem reset_memory_wf : (segMemory State.reset).wf = true ∧ (selMemory State.reset).wf = true :=
  ⟨segMemory_wf _, selMemory_wf _⟩

end Sys2Proof.Machine
end

