-- ==== Sys2Proof/Tests/Slice0.lean ====
section
/-! SUPPORT. Tests with expected results from 95_test_vectors.md, the refused ill-formed terms, and for every statement with
hypotheses a witness that meets them. -/

namespace Sys2Proof.Tests

open Sys2Proof Sys2Proof.Machine

/-! ### Helpers -/

/-- The outcome is a next state that passes the check. -/
def nextAnd (o : StepOutcome) (p : State → Bool) : Bool :=
  match o with
  | .next t => p t
  | .fault _ => false
  | .refused _ => false

/-- The outcome is a fault with this entry, and the state it leaves passes the check. -/
def faultAnd (o : StepOutcome) (e : FaultEntry) (p : State → Bool) : Bool :=
  match o with
  | .next _ => false
  | .fault f => f.entry == e && p f.after
  | .refused _ => false

/-- The outcome is a refusal with this code of 60_exceptions.md R200. -/
def refusedWith (o : StepOutcome) (code : Nat) : Bool :=
  match o with
  | .next _ => false
  | .fault _ => false
  | .refused r => r.code == some code

/-- The word `?...?b`: unknown cells above one known cell 0. -/
def lastKnown (b : Bit) : Cells16 := Vector.ofFn fun i => if i.val = 0 then .known b else .unknown

/-- The words are committed. -/
def committed (s : State) (ws : List Bits16) : Bool := s.commits == ws.map ofBits

/-- Reset with the shift chain, the wires and the display set. -/
def wired (shift : Cells16) (latch clock data : Bit) : State :=
  { State.reset with shiftChain := shift, latch := latch, clock := clock, data := data }

/-- Reset at AtRender with a refresh pending. -/
def atRender (mode : DisplayMode) (idx : Fin 4) (seconds : Nat) : State :=
  { State.reset with lphase := .atRender, pending := true, mode := mode, idx := idx, seconds := seconds }

/-- Reset with a system trace. -/
def systemTrace (items : List TraceItem) : State := loadTrace .system items State.reset

/-! ### Decoding (95_test_vectors.md V-DEC and the words of 30_encoding.md R77, written out) -/

theorem test_decode_segrd : decode 0b00000001_00001001_00000000 = .ok (.segrd 9) := by decide
theorem test_decode_selrd : decode 0b00000010_00000011_00000000 = .ok (.selrd 3) := by decide
theorem test_decode_emit : decode 0b00000011_00001010_11111110 = .ok (.emit 0x0A 0xFE) := by decide
theorem test_decode_pinw_latch : decode 0b00000100_00000000_00000001 = .ok (.pinwLatch true) := by decide
theorem test_decode_pinw_clock : decode 0b00000100_00000001_00000000 = .ok (.pinwClock false) := by decide
theorem test_decode_pinw_data : decode 0b00000100_00000010_00000001 = .ok (.pinwData true) := by decide
theorem test_decode_refresh : decode 0b00010000_00000000_00000000 = .ok .refresh := by decide
theorem test_decode_render : decode 0b00010001_00100111_00010000 = .ok (.render 10000) := by decide
theorem test_decode_sectick : decode 0b00100000_00000000_00000000 = .ok .sectick := by decide
theorem test_decode_poll : decode 0b00100001_00000001_00000000 = .ok (.poll false true) := by decide

/-- V-DEC-1, V-DEC-2, V-DEC-6. -/
theorem test_decode_unassigned :
    [0x000000, 0xFF0000, 0x050000, 0x120000, 0x220000].all
      (fun w => decode w == .error .unassignedOp) = true ∧
    decode 0x040300 = .error .noSuchPin := by decide

/-- V-DEC-3 to V-DEC-5 and V-DEC-7 to V-DEC-11. -/
theorem test_decode_fixed_bits :
    [0x011000, 0x010001, 0x020400, 0x020001, 0x040002, 0x100001, 0x200100, 0x210400, 0x210001].all
      (fun w => decode w == .error .fixedBits) = true := by decide

/-- Bytes: `op` first, exactly three, the rest handed back (30_encoding.md R75). -/
theorem test_decode_bytes :
    decodeBytes [0x03, 0xC0, 0xFE, 0x10] = .ok (.emit 0xC0 0xFE, [0x10]) ∧
    decodeBytes [0x03, 0xC0] = .error .truncated := by decide

/-- 95_test_vectors.md P2 line 3, S7, V-SER-1. -/
theorem test_encode_words :
    encode (.render 1650) = 0x110672 ∧ encode (.poll false true) = 0x210100 ∧
    encode (.pinwClock true) = 0x040101 := by decide

theorem test_decode_table_word :
    decodeTableWord 24 0x010500 = some (.segrd 5) ∧ decodeTableWord 24 0x040300 = none ∧
    decodeTableWord 24 0x1010500 = some (.segrd 5) ∧ decodeTableWord 32 0x1010500 = none := by decide

/-- The ten rows of 30_encoding.md R77, match and mask written out. -/
theorem test_opcode_table :
    opcodeTable.map (fun r => (r.pattern, r.mask)) =
      [(0x010000, 0xFFF0FF), (0x020000, 0xFFFCFF), (0x030000, 0xFF0000), (0x040000, 0xFFFFFE), (0x040100, 0xFFFFFE),
       (0x040200, 0xFFFFFE), (0x100000, 0xFFFFFF), (0x110000, 0xFF0000), (0x200000, 0xFFFFFF),
       (0x210000, 0xFFFCFF)] := by decide

/-- Assembler lines of 95_test_vectors.md P1 to P6. -/
theorem test_assembler_text :
    [AsmLine.op (.render 1650), .op (.poll true false), .op (.emit 0xC0 0xFE), .emitp 0x24 0xFD,
      .op (.pinwClock true)].map lineText =
      ["L: render 1650", "L: poll 1, 0", "U: emit 0xC0, 0xFE", "U: emitp 0x24, 0xFD", "U: pinw clock, 1"] := by decide

/-- The 50 words of 95_test_vectors.md P4: the first four, the last, and how many. -/
theorem test_assembler_words :
    (assemble [.emitp 0x24 0xFD]).length = 50 ∧
    ((assemble [.emitp 0x24 0xFD]).take 4).map (·.word) = [0x040000, 0x040200, 0x040101, 0x040100] ∧
    ((assemble [.emitp 0x24 0xFD]).drop 49).map (·.word) = [0x040001] := by decide

/-! ### Well-formedness: each check of 00_scope.md R7 refuses an ill-formed parameter set -/

/-- Two digit lines enabled at position 0. -/
def twoDigits : Params := { Params.default with selTable := #v[0xFC, 0xFD, 0xFB, 0xF7] }
/-- Two positions on one line, with a selector table that passes ONE_DIGIT. -/
def sharedLine : Params := { Params.default with digitLine := #v[0, 0, 2, 3], selTable := #v[0xFE, 0xFE, 0xFB, 0xF7] }
/-- The indicator on segment g's bit. -/
def sharedIndicator : Params := { Params.default with indBit := 6 }

theorem test_default_params_wf : Params.default.wf = true := by decide
theorem test_oneDigit_refused :
    twoDigits.failedCheck = some .oneDigit ∧ refusedWith (step (State.resetWith twoDigits)) 19 = true := by decide
theorem test_distinctLines_refused :
    sharedLine.failedCheck = some .distinctLines ∧ refusedWith (step (State.resetWith sharedLine)) 19 = true := by decide
theorem test_indFree_refused :
    sharedIndicator.failedCheck = some .indFree ∧
    refusedWith (step (State.resetWith sharedIndicator)) 19 = true := by decide

/-! ### The lookup ROMs (V-ROM) -/

/-- V-ROM-1 to V-ROM-10. -/
theorem test_segrd_words :
    ([0, 1, 2, 3, 4, 5, 6, 7, 8, 9].map fun d => (memReadSeg State.reset d)) =
      ([0xC0, 0xF9, 0xA4, 0xB0, 0x99, 0x92, 0x82, 0xF8, 0x80, 0x90].map some) ∧
    nextAnd (exec (.segrd 5) State.reset) (fun t => t.returns == [0x92]) = true := by decide

/-- V-ROM-11, V-ROM-12: the first unmapped and the last address. -/
theorem test_segrd_unmapped :
    faultAnd (exec (.segrd 10) State.reset) (.segAddrRange 10)
      (fun t => t == { State.reset with faults := [.segAddrRange 10] }) = true ∧
    faultAnd (exec (.segrd 15) State.reset) (.segAddrRange 15) (fun t => !t.isFinal) = true := by decide

/-- V-ROM-13. -/
theorem test_selrd_words :
    [0, 1, 2, 3].map (memReadSel State.reset) = [0xFE, 0xFD, 0xFB, 0xF7] ∧
    nextAnd (exec (.selrd 3) State.reset) (fun t => t.returns == [0xF7]) = true := by decide

/-- V-ROM-14, V-ROM-15. -/
theorem test_withInd_words :
    [0xC0, 0xF9, 0xA4, 0xB0, 0x99, 0x92, 0x82, 0xF8, 0x80, 0x90].map (withInd Params.default) =
      [0x40, 0x79, 0x24, 0x30, 0x19, 0x12, 0x02, 0x78, 0x00, 0x10] ∧
    withInd Params.default 0x40 = 0x40 := by decide

/-! ### The serial output sequencer (V-SER) -/

/-- V-SER-1, V-SER-2. -/
theorem test_pinwClock_rise :
    nextAnd (exec (.pinwClock true) (wired (ofBits 0x1234) false false true))
      (fun t => t.shiftChain == ofBits 0x2469 && t.clock) = true ∧
    nextAnd (exec (.pinwClock true) (wired (ofBits 0x2469) false true true))
      (fun t => t == wired (ofBits 0x2469) false true true) = true := by decide

/-- V-SER-3. -/
theorem test_pinwClock_fall :
    nextAnd (exec (.pinwClock false) (wired (ofBits 0x2469) false true true))
      (fun t => t.shiftChain == ofBits 0x2469 && !t.clock) = true := by decide

/-- V-SER-4. -/
theorem test_pinwData :
    nextAnd (exec (.pinwData true) (wired (ofBits 0x2469) false false false))
      (fun t => t == wired (ofBits 0x2469) false false true) = true := by decide

/-- V-SER-5. -/
theorem test_pinwLatch_rise :
    nextAnd (exec (.pinwLatch true) { wired (ofBits 0x2469) false false false with storage := ofBits 0x0000 })
      (fun t => t.storage == ofBits 0x2469 && committed t [0x2469] && t.latch) = true := by decide

/-- V-SER-6. -/
theorem test_pinwLatch_fall :
    nextAnd (exec (.pinwLatch false) { wired (ofBits 0x1234) true false false with storage := ofBits 0x2469 })
      (fun t => t.storage == ofBits 0x2469 && committed t [] && !t.latch) = true := by decide

/-- V-SER-7. -/
theorem test_emit_word :
    nextAnd (exec (.emit 0xC0 0xFE) State.reset) (fun t => t.shiftChain == ofBits 0xC0FE && t.storage == ofBits 0xC0FE &&
      committed t [0xC0FE] && t.latch && !t.clock && !t.data) = true := by decide

/-- V-SER-11. -/
theorem test_emit_clock_high :
    faultAnd (runOps [.pinwClock true, .emit 0xC0 0xFE] State.reset) (.clockNotIdle true)
      (fun t => committed t [] && t.shiftChain == lastKnown false) = true := by decide

/-- V-SER-13: a partial shift commits unknown cells. -/
theorem test_partial_shift_commits_unknown :
    nextAnd (runOps [.pinwData true, .pinwClock true, .pinwClock false, .pinwLatch true] State.reset)
      (fun t => t.storage == lastKnown true && t.commits == [lastKnown true]) = true := by decide

/-! ### The multiplexer (V-TDM) -/

/-- V-TDM-20, V-TDM-21. -/
theorem test_refresh :
    nextAnd (exec .refresh State.reset) (fun t => t.pending) = true ∧
    nextAnd (exec .refresh (atRender .time 0 0)) (fun t => t == atRender .time 0 0) = true := by decide

/-- V-TDM-2 and V-TDM-4: the colon, and the wrap of the index. -/
theorem test_render_time :
    nextAnd (exec (.render 0) (atRender .time 1 125)) (fun t => committed t [0x24FD] && t.idx == 2 && !t.pending) = true ∧
    nextAnd (exec (.render 9999) (atRender .time 3 125)) (fun t => committed t [0x92F7] && t.idx == 0) = true := by decide

/-- V-TDM-10 at positions 0 and 2: the decimal point, and the middle digit. -/
theorem test_render_volt :
    nextAnd (exec (.render 1650) (atRender .volt 0 125)) (fun t => committed t [0x79FE]) = true ∧
    nextAnd (exec (.render 1650) (atRender .volt 2 125)) (fun t => committed t [0x92FB]) = true := by decide

/-- V-TDM-6, V-TDM-9, V-TDM-14, V-TDM-15: the digits of a frame. -/
theorem test_digit_values :
    (List.finRange 4).map (fun p => digitValue .time p 5999 0) = [9, 9, 5, 9] ∧
    (List.finRange 4).map (fun p => digitValue .time p 3599 0) = [5, 9, 5, 9] ∧
    (List.finRange 4).map (fun p => digitValue .volt p 0 1005) = [1, 0, 0, 5] ∧
    (List.finRange 4).map (fun p => digitValue .volt p 0 7) = [0, 0, 0, 7] := by decide

/-- V-TDM-17, its word run by the step. -/
theorem test_render_mv_range :
    faultAnd (step { atRender .time 0 125 with trace := [⟨.mainLoop, 0x112710⟩] }) (.mvRange 10000)
      (fun t => t.pending && t.lphase == .atRender && t.commits == []) = true := by decide

/-- V-TDM-22 and V-ROM-16. -/
theorem test_step_refuses :
    refusedWith (step (systemTrace [⟨.mainLoop, 0x110000⟩])) 18 = true ∧
    refusedWith (step (systemTrace [⟨.unitPort, 0x010300⟩])) 17 = true ∧
    refusedWith (step (systemTrace [⟨.unitPort, 0x040300⟩])) 16 = true := by decide

/-- The lit view at 0x24FD (95_test_vectors.md S6; 40_rom_lookup.md R101: the digit 2 lights a, b, d, e, g). -/
theorem test_lit_view :
    nextAnd (exec (.emit 0x24 0xFD) State.reset) (fun t =>
      [Segment.a, .b, .c, .d, .e, .f, .g].map (segLit t 1) ==
        [true, true, false, true, true, false, true].map Cell.known &&
      indLit t 1 == .known true && segLit t 0 .a == .known false && enabledDigits t == [1]) = true := by decide

/-! ### The environment (V-ENV) -/

/-- V-ENV-3, V-ENV-4. -/
theorem test_sectick :
    nextAnd (exec .sectick { State.reset with seconds := 5998 }) (fun t => t.seconds == 5999) = true ∧
    nextAnd (exec .sectick { State.reset with seconds := 5999 }) (fun t => t.seconds == 0) = true := by decide

/-- V-ENV-5, V-ENV-6. -/
theorem test_poll_reset_edge :
    nextAnd (exec (.poll false true) { State.reset with seconds := 300 })
      (fun t => t.seconds == 0 && !t.prevReset && t.mode == .time && t.lphase == .atRender) = true ∧
    nextAnd (exec (.poll false true) { State.reset with seconds := 300, prevReset := false })
      (fun t => t.seconds == 300 && !t.prevReset) = true := by decide

/-- V-ENV-7, V-ENV-8. -/
theorem test_poll_release_and_mode :
    nextAnd (exec (.poll true true) { State.reset with seconds := 300, prevReset := false })
      (fun t => t.seconds == 300 && t.prevReset) = true ∧
    nextAnd (exec (.poll true false) State.reset) (fun t => t.mode == .volt) = true := by decide

/-- 95_test_vectors.md S2. -/
theorem test_clamp_and_decompose :
    decompose 1650 = (1, 650) ∧ clampMv 12000 = 9999 ∧ clampMv 3300 = 3300 := by decide

/-! ### Reset and the host's entry -/

theorem test_reset_memory :
    (segMemory State.reset).wf = true ∧ (segMemory State.reset).read 9 = some 0x90 ∧
    (segMemory State.reset).read 10 = none ∧ (selMemory State.reset).read 3 = some 0xF7 := by decide

/-- A word of each row, placed in the reset state, is decoded to its operation and runs to a next state. -/
theorem test_placed_words_run :
    [0x010000, 0x020000, 0x030000, 0x040000, 0x040100, 0x040200, 0x100000, 0x110000, 0x200000, 0x210000].all
      (fun w => (decodeTableWord 24 w).isSome && nextAnd (step (State.reset.withFetchWord 24 w)) (fun _ => true)) =
      true := by decide

theorem test_boot_reaches_reset : boot { State.reset with clock := true, idx := 2, seconds := 7 } = State.reset := by decide

/-- R200's code and R31's set: two faults are listed once each, in rising order (log 13). -/
theorem test_faults_listed :
    insertFault (.segAddrRange 10) (insertFault (.mvRange 10000) (insertFault (.segAddrRange 10) [])) =
      [.segAddrRange 10, .mvRange 10000] := by decide

/-! ### Witnesses: states and operands that meet the hypotheses of the statements -/

theorem witness_DecodedWordIsItsEncoding : decode 0x030AFE = .ok (.emit 0x0A 0xFE) := by decide

theorem witness_DecoderFollowsOpcodeMap :
    (Instr.poll false false).row ∈ opcodeTable ∧
    0x210300 &&& (Instr.poll false false).row.mask = (Instr.poll false false).row.pattern ∧
    decode 0x210300 = .ok (.poll true true) := by decide

/-- A POLL at AtPoll and a RENDER at AtRender meet every hypothesis. -/
theorem witness_StepRunsDecodedInstruction :
    let s := systemTrace [⟨.mainLoop, 0x210200⟩]
    let t := { s with lphase := .atRender, trace := [⟨.mainLoop, 0x11270F⟩] }
    s.params.wf = true ∧ s.trace = [⟨(Instr.poll true false).agent, 0x210200⟩] ∧ decode 0x210200 = .ok (.poll true false) ∧
    s.traceKind = (Instr.poll true false).traceKind ∧ (Instr.poll true false).phase = some s.lphase ∧
    t.trace = [⟨(Instr.render 9999).agent, 0x11270F⟩] ∧ decode 0x11270F = .ok (.render 9999) ∧
    (Instr.render 9999).phase = some t.lphase := by decide

/-- One input for each refusal: the parameters, the word, the trace kind, the agent, the phase. -/
theorem witness_RefusalsComeInOrder :
    (State.resetWith twoDigits).params.wf = false ∧ State.reset.params.wf = true ∧
    decode 0x040300 = .error .noSuchPin ∧
    (decode 0x010300 = .ok (.segrd 3) ∧ State.reset.traceKind ≠ (Instr.segrd 3).traceKind) ∧
    (decode 0x100000 = .ok .refresh ∧ Agent.mainLoop ≠ Instr.refresh.agent) ∧
    (decode 0x110000 = .ok (.render 0) ∧ State.reset.traceKind = (Instr.render 0).traceKind ∧
      (Instr.render 0).phase = some .atRender ∧ State.reset.lphase ≠ .atRender) := by decide

theorem witness_PlacedWordRunsNext : State.reset.params.wf = true := by decide

/-- One parameter set for each of the three checks, and one that passes all. -/
theorem witness_ParameterChecksGuardEveryStep :
    twoDigits.oneDigit = false ∧
    (sharedLine.oneDigit = true ∧ sharedLine.distinctLines = false) ∧
    (sharedIndicator.oneDigit = true ∧ sharedIndicator.distinctLines = true ∧ sharedIndicator.indFree = false) ∧
    Params.default.wf = true := by decide

theorem witness_SegrdReturnsStoredWord : (9#4).toNat < 10 ∧ 9 < (10#4).toNat := by decide

theorem witness_IndicatorClearsOneLane : (0x40#8).getLsbD Params.default.indBit.val = false := by decide

theorem witness_EmitTransfersWord :
    State.reset.clock = false ∧ (wired (ofBits 0) false true false).clock = true := by decide

theorem witness_ClockRisingEdgeShifts : (wired (ofBits 0x1234) true false true).clock = false := by decide

theorem witness_LatchRisingEdgeCommits : (wired (lastKnown true) false true false).latch = false := by decide

/-- Both ways to make no edge, on each wire. -/
theorem witness_WireWriteWithoutEdgeSetsWire :
    (wired (ofBits 0) true true false).clock = true ∧ (wired (ofBits 0) true true false).latch = true := by decide

theorem witness_EmitSequenceAgreesWithEmit : State.reset.clock = false ∧ 49 < 50 := by decide
theorem witness_EmitSequenceClocksSixteenBits : State.reset.clock = false := by decide
theorem witness_EmitSequenceFromClockHighShiftsFifteen : (wired (ofBits 0) false true false).clock = true := by decide

theorem witness_RefreshSetsPending :
    let s := systemTrace [⟨.refreshIrq, 0x100000⟩]
    s.params.wf = true ∧ s.traceKind = .system ∧ s.trace = [⟨.refreshIrq, 0x100000⟩] := by decide

/-- The largest value of each range, where the dispatch answers 9. -/
theorem witness_DigitDispatchFollowsTable :
    5999 ≤ 5999 ∧ 9999 ≤ 9999 ∧ digitValue .time 0 5999 9999 = 9 ∧ digitValue .volt 3 5999 9999 = 9 := by decide
theorem witness_FrameDigitsRecomposeValue : 5999 ≤ 5999 ∧ 9999 ≤ 9999 := by decide

/-- The largest sample and the largest count that render. -/
theorem witness_RenderConsumesRefresh :
    let s := atRender .volt 3 5999
    (9999#16).toNat ≤ 9999 ∧ s.seconds ≤ 5999 ∧ s.pending = true ∧ s.clock = false := by decide
theorem witness_RenderIdleChangesOnlyPhase :
    let s := { atRender .time 2 5999 with pending := false }
    (9999#16).toNat ≤ 9999 ∧ s.seconds ≤ 5999 ∧ s.pending = false := by decide

/-- The smallest sample and the smallest count that fault, and a render with CLOCK at 1. -/
theorem witness_RenderFaultsInOrder :
    9999 < (10000#16).toNat ∧
    ((9999#16).toNat ≤ 9999 ∧ 5999 < (atRender .time 0 6000).seconds) ∧
    (let s := { atRender .time 0 5999 with clock := true }
     s.seconds ≤ 5999 ∧ s.pending = true ∧ s.clock = true) := by decide

theorem witness_RenderReadsOnlyItsModeSource :
    (atRender .time 1 125).mode = .time ∧ (0#16).toNat ≤ 9999 ∧ (9999#16).toNat ≤ 9999 ∧
    (atRender .volt 1 125).mode = .volt ∧ 5999 ≤ 5999 ∧
    nextAnd (exec (.render 9999) (atRender .volt 1 125)) (fun _ => true) = true := by decide

/-- A step that leaves the index, and a step that moves it. -/
theorem witness_IndexAdvancesOncePerConsumedRefresh :
    let s := { atRender .time 3 125 with trace := [⟨.mainLoop, 0x110000⟩] }
    (systemTrace [⟨.tickIrq, 0x200000⟩]).traceKind = .system ∧
    nextAnd (step (systemTrace [⟨.tickIrq, 0x200000⟩])) (fun t => t.idx == 0) = true ∧
    s.traceKind = .system ∧ nextAnd (step s) (fun t => t.idx == 0 && t.commits.length == 1) = true := by decide

/-- The start of 95_test_vectors.md P1. -/
def frameStart : State := { systemTrace (traceOf (frameOps true true 0)) with seconds := 125 }

theorem frameStart_words :
    (frameStart.trace.take 12).all (fun item => decide (decode item.word = .ok (.render 0)) ||
      decide (decode item.word = .ok .refresh) || decide (decode item.word = .ok (.poll true true))) = true := by decide

/-- The frame of 95_test_vectors.md P1 meets every hypothesis, and its four words are those P1 gives. -/
theorem witness_FrameWordsUnderEveryInterleaving :
    frameStart.traceKind = .system ∧ frameStart.clock = false ∧ frameStart.idx = 0 ∧ 125 ≤ 5999 ∧ (0#16).toNat ≤ 9999 ∧
    (∀ k, k < 12 → (advanceN k frameStart).lphase = .atRender →
      (advanceN k frameStart).mode = .time ∧ (advanceN k frameStart).seconds = 125) ∧
    (∀ item ∈ frameStart.trace.take 12, ∀ mv', decode item.word = .ok (.render mv') → mv' = 0) ∧
    committed (advanceN 12 frameStart) [0xC0FE, 0x24FD, 0xC0FB, 0x92F7] = true := by
  refine ⟨rfl, rfl, rfl, by decide, by decide, by decide, ?_, by decide⟩
  intro item hitem mv' hd
  have h := List.all_eq_true.mp frameStart_words item hitem
  simp only [Bool.or_eq_true, decide_eq_true_eq] at h
  rcases h with (h | h) | h <;> rw [hd] at h <;> cases h
  rfl

theorem witness_FrameCommitsFourPositions :
    frameStart.params.wf = true ∧ frameStart.traceKind = .system ∧ frameStart.lphase = .atPoll ∧ frameStart.idx = 0 ∧
    frameStart.clock = false ∧ frameStart.seconds ≤ 5999 ∧ (0#16).toNat ≤ 9999 ∧
    resetEdge frameStart.prevReset true = false ∧ frameStart.trace = traceOf (frameOps true true 0) ++ [] := by decide

theorem witness_ConsumingRenderLightsItsDigit :
    let s := atRender .volt 3 5999
    s.params.wf = true ∧ (9999#16).toNat ≤ 9999 ∧ s.seconds ≤ 5999 ∧ s.pending = true ∧ s.clock = false := by decide

theorem witness_SectickCountsAndWraps :
    let s := systemTrace [⟨.tickIrq, 0x200000⟩]
    s.params.wf = true ∧ s.traceKind = .system ∧ s.trace = [⟨.tickIrq, 0x200000⟩] := by decide

/-- Both phases, with the word of `poll 1, 0`. -/
theorem witness_PollFollowsLevels :
    let word := opWord 0x21 (BitVec.ofNat 8 (2 * true.toNat + false.toNat)) 0x00
    let s := systemTrace [⟨.mainLoop, word⟩]
    word = 0x210200 ∧ s.params.wf = true ∧ s.traceKind = .system ∧ s.trace = [⟨.mainLoop, word⟩] ∧ s.lphase = .atPoll ∧
    ({ s with lphase := .atRender }).lphase = .atRender := by decide

/-- A button held over two polls of a system trace, with a tick before and a refresh after the render between them. -/
def heldButton : State :=
  { systemTrace (traceOf [.poll false true, .sectick, .render 9999, .refresh, .poll false false]) with seconds := 5999 }

/-- The operations between the polls run from a state at the largest count, and the trace meets every other hypothesis. -/
theorem witness_HeldResetButtonResetsOnce :
    nextAnd (runOps [.poll false true, .sectick, .render 9999, .refresh] heldButton)
      (fun t => t.seconds == 1 && !t.prevReset) = true ∧
    (∀ i ∈ [Instr.sectick] ++ [Instr.refresh], i = Instr.refresh ∨ i = Instr.sectick) ∧
    heldButton.params.wf = true ∧ heldButton.traceKind = .system ∧ heldButton.lphase = .atPoll ∧
    heldButton.clock = false ∧ heldButton.seconds ≤ 5999 ∧ (9999#16).toNat ≤ 9999 ∧
    heldButton.trace = traceOf (.poll false true :: ([Instr.sectick] ++ .render 9999 :: ([Instr.refresh] ++ [.poll false false]))) ++
      [] := by decide

theorem witness_ClampIsMinimum : 3300 ≤ 3300 := by decide
theorem witness_DecomposeRecomposes : 9999 ≤ 9999 := by decide

/-- The greatest sample exists, and reset meets the other hypotheses. -/
theorem witness_ClampedSampleRenders :
    (∃ x : Config.Sample, x.val = 1) ∧ State.reset.seconds ≤ 5999 ∧ State.reset.clock = false :=
  ⟨⟨⟨1, by norm_num, le_refl 1⟩, rfl⟩, by decide, rfl⟩

/-- A system trace after its first commit, at the render of a sample the environment failed to clamp
(95_test_vectors.md P6). -/
def afterFirstCommit : State :=
  { systemTrace [⟨.mainLoop, 0x112710⟩] with
    commits := [ofBits 0xC0FE], storage := ofBits 0xC0FE, shiftChain := ofBits 0xC0FE, idx := 1, lphase := .atRender }

theorem witness_SystemInvariantKept : SystemInv afterFirstCommit where
  systemTrace := rfl
  paramsWf := by decide
  clockLow := rfl
  secondsInRange := by decide
  shiftIsStorage := rfl
  storageIsLast := by decide
  positionsInTurn := by
    intro j w h
    match j with
    | 0 => exact ⟨0xC0, by cases h; decide⟩
    | j + 1 => cases h
  idxCountsCommits := rfl
  faultsListed := rfl

theorem witness_SystemInvariantAtReset : Params.default.wf = true := by decide

theorem witness_OneDigitEnabledAfterFirstCommit :
    SystemInv afterFirstCommit ∧ afterFirstCommit.commits ≠ [] ∧ enabledDigits afterFirstCommit = [0] :=
  ⟨witness_SystemInvariantKept, by decide, by decide⟩

theorem witness_SystemTraceFaultsOnlyOnMvRange :
    SystemInv afterFirstCommit ∧ faultAnd (step afterFirstCommit) (.mvRange 10000) (fun _ => true) = true :=
  ⟨witness_SystemInvariantKept, by decide⟩

theorem witness_SecondsStayInRange :
    ({ State.reset with seconds := 5999 } : State).seconds ≤ 5999 ∧ tickSeconds 5999 = 0 ∧ tickSeconds 5998 = 5999 := by decide

/-- For every element that an operation may write, an operation that does write it. -/
theorem witness_WritersOfEachElement :
    nextAnd (exec .refresh State.reset) (fun t => t.pending != State.reset.pending) = true ∧
    nextAnd (exec (.render 0) (atRender .time 0 0)) (fun t => t.idx != 0 && t.lphase != .atRender && !t.pending &&
      t.latch && t.commits != [] && t.storage != State.reset.storage && t.shiftChain != State.reset.shiftChain) = true ∧
    nextAnd (exec (.render 0) (atRender .time 1 0)) (fun t => t.data) = true ∧
    nextAnd (exec (.poll false false) { State.reset with seconds := 1 }) (fun t => t.seconds != 1 && t.mode != .time &&
      t.lphase != .atPoll && t.prevReset != true) = true ∧
    nextAnd (exec (.pinwClock true) State.reset) (fun t => t.clock && t.shiftChain != State.reset.shiftChain) = true ∧
    nextAnd (exec (.segrd 0) State.reset) (fun t => t.returns != []) = true := by decide

/-- A step that faults, a step that refuses, and a state with both marks. -/
theorem witness_MarksAreSticky :
    faultAnd (step afterFirstCommit) (.mvRange 10000) (fun t => t.faults == [.mvRange 10000]) = true ∧
    refusedWith (step (systemTrace [⟨.mainLoop, 0x110000⟩])) 18 = true ∧
    (let s := { State.reset with faults := [.mvRange 10000], refused := true }
     FaultEntry.mvRange 10000 ∈ s.faults ∧ s.refused = true ∧ s.isFinal = false) := by decide

theorem witness_InterruptsCommute :
    (Instr.emit 0xC0 0xFE).traceKind = .unit ∧
    nextAnd (exec (.emit 0xC0 0xFE) State.reset) (fun t => committed t [0xC0FE]) = true := by decide

end Sys2Proof.Tests
end

/-! Every step keeps the parameter set, hence the contents of both ROMs (20_memory.md R52). -/

namespace Sys2Proof.Machine

/-- `outcomeState` reads its second state only where the refusal carries none, and no operation ends in a refusal. -/
theorem outcomeState_exec_congr (i : Instr) (s t u : State) : outcomeState (exec i s) t = outcomeState (exec i s) u := by
  cases h : exec i s with
  | next _ => rfl
  | fault _ => rfl
  | refused r => exact absurd h (exec_ne_refused i s r)

theorem outcomeState_stepItem_params (item : TraceItem) (s t : State) :
    (outcomeState (stepItem item s) t).params = s.params := by
  rcases stepItem_cases item s with ⟨_, h⟩ | ⟨i, _, ⟨_, h⟩ | ⟨_, _, h⟩ | ⟨_, _, h⟩⟩ <;> rw [h]
  · rfl
  · rfl
  · rfl
  · rw [outcomeState_exec_congr i s t s, outcomeState_exec_params]

@[simp] theorem advance_params (s : State) : (advance s).params = s.params := by
  unfold advance
  rcases step_cases s with ⟨_, _, h⟩ | ⟨_, _, h⟩ | ⟨_, item, rest, _, h⟩ <;> rw [h]
  · rfl
  · rfl
  · rw [outcomeState_stepItem_params, setTrace_params]

/-- What every step keeps, any number of steps keeps. -/
theorem advanceN_keeps {p : State → Prop} (hp : ∀ s, p s → p (advance s)) (k : Nat) {s : State} (h : p s) :
    p (advanceN k s) := by
  induction k generalizing s with
  | zero => exact h
  | succ k ih => exact ih (hp s h)

@[simp] theorem advanceN_params (k : Nat) (s : State) : (advanceN k s).params = s.params :=
  advanceN_keeps (p := fun t => t.params = s.params) (fun t h => (advance_params t).trans h) k rfl

end Sys2Proof.Machine

section
open Sys2Proof.Machine

/-- Settles O12: a ROM read is a function of the parameter set, which no operation and no step writes. -/
theorem romContentsNeverChange : Obligations.RomContentsNeverChange := by
  refine ⟨fun i s a p => ?_, fun k s a p => ?_⟩
  · have h := outcomeState_exec_params i s
    exact ⟨memReadSeg_congr h a, memReadSel_congr h p⟩
  · have h := advanceN_params k s
    exact ⟨memReadSeg_congr h a, memReadSel_congr h p⟩

end

/-! The step that runs an enabled word, and what a step of a system trace does to the index and the committed words
(42_tdm_scheduler.md R150, R156). -/

namespace Sys2Proof.Machine

/-- A word at the head of the trace is run when its own agent issues it in a trace of its kind and at its phase
(30_encoding.md R81, R82). -/
theorem step_eq_exec {s : State} {w : OpWord} {rest : List TraceItem} {i : Instr} (hwf : s.params.wf = true)
    (ht : s.trace = ⟨i.agent, w⟩ :: rest) (hd : decode w = .ok i) (hk : s.traceKind = i.traceKind)
    (hp : ∀ l, i.phase = some l → s.lphase = l) : step s = exec i (setTrace rest s) := by
  have hf := (failedCheck_eq_none_iff s.params).mpr hwf
  have ha : admittedIn s.traceKind i.agent i = true := (admittedIn_iff _ _ _).mpr ⟨rfl, hk⟩
  have hl : inPhase s.lphase i = true := (inPhase_iff _ _).mpr hp
  simp [step, stepChecked, stepTrace, stepItem, hf, ht, hd, ha, hl]

/-- The opcode 0x11 alone gives a RENDER, whose operand is the other two bytes (30_encoding.md R77). -/
theorem eq_of_decodeFields_render {op a b : Bits8} {mv : Bits16} (h : decodeFields op a b = .ok (.render mv)) :
    op = 0x11 ∧ a ++ b = mv := by
  unfold decodeFields decodePinw at h
  split_ifs at h <;> cases h
  exact ⟨‹op = 0x11›, rfl⟩

/-- A word that decodes to a RENDER is that RENDER's own word (30_encoding.md R78). -/
theorem encode_of_decode_render {w : OpWord} {mv : Bits16} (h : decode w = .ok (.render mv)) :
    encode (.render mv) = w := by
  obtain ⟨hop, rfl⟩ := eq_of_decodeFields_render h
  have ha : (aField w ++ bField w).extractLsb' 8 8 = aField w := BitVec.extractLsb'_append_eq_left
  have hb : (aField w ++ bField w).extractLsb' 0 8 = bField w := BitVec.extractLsb'_append_eq_right
  calc encode (.render (aField w ++ bField w))
      _ = opWord (opField w) (aField w) (bField w) := by rw [encode, ha, hb, hop]
      _ = w := opWord_fields w

/-- The trace kind, the index and the committed words are those of `s`. -/
def SamePosition (s t : State) : Prop := t.traceKind = s.traceKind ∧ t.idx = s.idx ∧ t.commits = s.commits

/-- A refresh of `s` is consumed: the index moves by one modulo 4 and one word is committed (42_tdm_scheduler.md R156). -/
def ConsumesRefresh (s t : State) : Prop :=
  s.pending = true ∧ t.pending = false ∧ t.traceKind = s.traceKind ∧ t.idx = s.idx + 1 ∧
    t.commits.length = s.commits.length + 1

/-- Everything an operation of a system trace does to the index and the committed words. -/
theorem exec_system_cases {i : Instr} (s : State) (hk : i.traceKind = .system) :
    (∃ t, exec i s = .next t ∧ SamePosition s t ∧ (s.pending = true → t.pending = true)) ∨
    (∃ e u, exec i s = raise e u ∧ SamePosition s u) ∨
    (∃ mv t, i = .render mv ∧ exec i s = .next t ∧ ConsumesRefresh s t) := by
  cases i with
  | refresh => exact .inl ⟨_, rfl, ⟨rfl, rfl, rfl⟩, fun _ => rfl⟩
  | sectick => exact .inl ⟨_, rfl, ⟨rfl, rfl, rfl⟩, id⟩
  | poll r m =>
    refine .inl ⟨_, rfl, ?_⟩
    cases resetEdge s.prevReset r <;> exact ⟨⟨rfl, rfl, rfl⟩, id⟩
  | render mv =>
    rcases execRender_cases mv s with ⟨_, h⟩ | ⟨_, _, h⟩ | ⟨_, _, hp, h⟩ | ⟨_, _, _, _, h⟩ | ⟨_, _, hp, _, _, _, h⟩
    · exact .inr (.inl ⟨_, s, h, ⟨rfl, rfl, rfl⟩⟩)
    · exact .inr (.inl ⟨_, s, h, ⟨rfl, rfl, rfl⟩⟩)
    · exact .inl ⟨_, h, ⟨rfl, rfl, rfl⟩, id⟩
    · exact .inr (.inl ⟨_, _, h, ⟨rfl, rfl, rfl⟩⟩)
    · exact .inr (.inr ⟨mv, _, rfl, h, hp, rfl, rfl, nextIdx_eq s.idx, by simp⟩)
  | segrd _ | selrd _ | emit _ _ | pinwLatch _ | pinwClock _ | pinwData _ => cases hk

/-- A refusal of a step, whatever its reason, is no next state and leaves the position of the state it was raised in. -/
theorem stops_of_refuse {k : State → Refusal} {s u : State} (h : step s = refuse k u)
    (hu : SamePosition s ((k (markRefused u)).after s)) :
    (∀ t, step s ≠ .next t) ∧ SamePosition s (advance s) := by
  refine ⟨by simp [h], ?_⟩
  rw [advance, h]
  exact hu

/-- A fault of a step is no next state, and recording it leaves the position. -/
theorem stops_of_raise {e : FaultEntry} {s u : State} (h : step s = raise e u) (hu : SamePosition s u) :
    (∀ t, step s ≠ .next t) ∧ SamePosition s (advance s) := by
  refine ⟨by simp [h], ?_⟩
  rw [advance, h, outcomeState_raise]
  exact hu

/-- Everything a step of a system trace does to the index and the committed words: it goes on without consuming a refresh,
it stops, or it is a RENDER that consumes one. -/
theorem step_system_cases {s : State} (hk : s.traceKind = .system) :
    (∃ t, step s = .next t ∧ SamePosition s t ∧ (s.pending = true → t.pending = true)) ∨
    ((∀ t, step s ≠ .next t) ∧ SamePosition s (advance s)) ∨
    (∃ mv rest t, s.trace = ⟨.mainLoop, encode (.render mv)⟩ :: rest ∧ step s = .next t ∧ ConsumesRefresh s t) := by
  rcases step_cases s with ⟨_, _, h⟩ | ⟨_, _, h⟩ | ⟨_, ⟨agent, w⟩, rest, ht, h⟩
  · exact .inr (.inl (stops_of_refuse h ⟨rfl, rfl, rfl⟩))
  · exact .inl ⟨s, h, ⟨rfl, rfl, rfl⟩, id⟩
  rcases stepItem_cases ⟨agent, w⟩ (setTrace rest s) with ⟨_, hi⟩ | ⟨i, hd, ⟨_, hi⟩ | ⟨_, _, hi⟩ | ⟨ha, _, hi⟩⟩ <;>
    rw [hi] at h
  · exact .inr (.inl (stops_of_refuse h ⟨rfl, rfl, rfl⟩))
  · exact .inr (.inl (stops_of_refuse h ⟨rfl, rfl, rfl⟩))
  · exact .inr (.inl (stops_of_refuse h ⟨rfl, rfl, rfl⟩))
  obtain ⟨rfl, hik⟩ := (admittedIn_iff _ _ _).mp ha
  rcases exec_system_cases (setTrace rest s) (hik.symm.trans hk) with ⟨t, he, hs⟩ | ⟨e, u, he, hs⟩ | ⟨mv, t, rfl, he, hs⟩
  · exact .inl ⟨t, h.trans he, hs⟩
  · exact .inr (.inl (stops_of_raise (h.trans he) hs))
  · obtain rfl : encode (.render mv) = w := encode_of_decode_render hd
    exact .inr (.inr ⟨mv, rest, t, ht, h.trans he, hs⟩)

/-- A system trace stands at the index that counts its committed words modulo 4 (42_tdm_scheduler.md R156). -/
def IdxCountsCommits (s : State) : Prop := s.traceKind = .system ∧ s.idx.val = s.commits.length % 4

theorem SamePosition.idxCountsCommits {s t : State} (h : SamePosition s t) (hs : IdxCountsCommits s) :
    IdxCountsCommits t := by
  obtain ⟨hk, hi, hc⟩ := h
  rw [IdxCountsCommits, hk, hi, hc]
  exact hs

theorem ConsumesRefresh.idxCountsCommits {s t : State} (h : ConsumesRefresh s t) (hs : IdxCountsCommits s) :
    IdxCountsCommits t := by
  obtain ⟨-, -, hk, hi, hc⟩ := h
  refine ⟨hk.trans hs.1, ?_⟩
  rw [hi, hc, Fin.val_add, hs.2]
  exact Nat.mod_add_mod _ 4 1

theorem advance_keeps_idxCountsCommits (s : State) (h : IdxCountsCommits s) : IdxCountsCommits (advance s) := by
  rcases step_system_cases h.1 with ⟨t, ht, hs, _⟩ | ⟨_, hs⟩ | ⟨_, _, t, _, ht, hs⟩
  · rw [advance, ht]
    exact hs.idxCountsCommits h
  · exact hs.idxCountsCommits h
  · rw [advance, ht]
    exact hs.idxCountsCommits h

end Sys2Proof.Machine

section
open Sys2Proof Sys2Proof.Machine

/-- Settles O30, from the three ways a step of a system trace can end and the invariant that the index counts the commits. -/
theorem indexAdvancesOncePerConsumedRefresh : Obligations.IndexAdvancesOncePerConsumedRefresh := by
  refine ⟨fun s t hk ht => ?_, fun P items k => ?_⟩
  · rcases step_system_cases hk with ⟨u, hu, ⟨_, hi, hc⟩, hp⟩ | ⟨hn, _⟩ |
      ⟨mv, rest, u, hr, hu, hp, hq, _, hi, hc⟩
    · cases ht.symm.trans hu
      exact .inl ⟨hi, hc, hp⟩
    · exact absurd ht (hn t)
    · cases ht.symm.trans hu
      exact .inr ⟨hp, hq, hi, hc, mv, rest, hr⟩
  · have hreset : IdxCountsCommits (loadTrace .system items (State.resetWith P)) := ⟨rfl, rfl⟩
    exact (advanceN_keeps advance_keeps_idxCountsCommits k hreset).2

/-- Settles O23: the last digit of either mode reaches every value, and the entries are the tables' own. -/
theorem digitDispatchFollowsTable : Obligations.DigitDispatchFollowsTable := by
  refine ⟨digitValue_le_nine, fun d hd mode => ⟨3, d, d, by omega, by omega, ?_⟩,
    fun _ _ => ⟨rfl, rfl, rfl, rfl, rfl, rfl, rfl, rfl⟩⟩
  cases mode
  · change d % 60 % 10 = d; omega
  · change d % 1000 % 10 = d; omega

/-- Settles O22: REFRESH has no phase, so its word is enabled wherever it heads a system trace. -/
theorem refreshSetsPending : Obligations.RefreshSetsPending :=
  ⟨fun _ => rfl, fun _ _ hwf hk ht =>
    step_eq_exec (i := .refresh) hwf ht (by decide) hk (fun _ hl => nomatch hl)⟩

/-- Settles O25, from the position constants of each mode. -/
theorem indicatorPositions : Obligations.IndicatorPositions :=
  fun _ => ⟨beq_iff_eq, beq_iff_eq, fun _ _ _ => rfl⟩

/-- Settles O27: it is the idle case of a render. -/
theorem renderIdleChangesOnlyPhase : Obligations.RenderIdleChangesOnlyPhase := execRender_idle

end

/-! The environment's operations and functions: SECTICK, POLL, the clamp and the decomposition (43_environment.md R180, R182,
R186, R187). -/

namespace Sys2Proof.Machine

/-- A word at the head of the trace is refused outside its operation's phase, where agent and trace kind are its own
(30_encoding.md R82). -/
theorem step_eq_refuse_outOfPhase {s : State} {w : OpWord} {rest : List TraceItem} {i : Instr} {l : LPhase}
    (hwf : s.params.wf = true) (ht : s.trace = ⟨i.agent, w⟩ :: rest) (hd : decode w = .ok i)
    (hk : s.traceKind = i.traceKind) (hp : i.phase = some l) (hl : s.lphase ≠ l) :
    step s = refuse (.outOfPhase w) (setTrace rest s) := by
  have hf := (failedCheck_eq_none_iff s.params).mpr hwf
  have ha : admittedIn s.traceKind i.agent i = true := (admittedIn_iff _ _ _).mpr ⟨rfl, hk⟩
  have hn : inPhase s.lphase i = false := by
    rw [Bool.eq_false_iff, Ne, inPhase_iff]
    exact fun h => hl (h l hp)
  simp [step, stepChecked, stepTrace, stepItem, hf, ht, hd, ha, hn]

theorem resetEdge_iff (prev r : Bit) : resetEdge prev r = true ↔ prev = true ∧ r = false := by
  simp [resetEdge]

/-- The four elements POLL writes (43_environment.md R182). -/
theorem exec_poll (r m : Bit) (s : State) : exec (.poll r m) s = .next { s with
    seconds := if s.prevReset = true ∧ r = false then 0 else s.seconds
    prevReset := r
    mode := if m = false then .volt else .time
    lphase := .atRender } := by
  by_cases h : s.prevReset = true ∧ r = false
  · rw [exec, execPoll, if_pos ((resetEdge_iff _ _).mpr h), if_pos h]; rfl
  · rw [exec, execPoll, if_neg (mt (resetEdge_iff _ _).mp h), if_neg h]; rfl

/-- POLL's `A` byte is the number `2r + m` (30_encoding.md R77). -/
theorem decode_pollWord (r m : Bit) :
    decode (opWord 0x21 (BitVec.ofNat 8 (2 * r.toNat + m.toNat)) 0x00) = .ok (.poll r m) := by
  revert r m; decide

theorem clampMv_of_le {m : Nat} (h : m ≤ 9999) : clampMv m = m := min_eq_left h

/-- An exact conversion of a sample in [0,1] at the reference voltage gives at most 3300 mV (43_environment.md R186). -/
theorem sample_millivolts_le (x : Config.Sample) : (x.val * (Config.vrefV : ℝ) * 1000 : ℝ) ≤ 3300 := by
  have hx : x.val ≤ 1 := x.property.2
  have hv : (Config.vrefV : ℝ) = 33 / 10 := by norm_num [Config.vrefV]
  rw [hv]
  linarith

theorem decompose_recomposes (m : Nat) : (decompose m).1 * 1000 + (decompose m).2 = m := Nat.div_add_mod' m 1000

theorem decompose_volts_le {m : Nat} (h : m ≤ 9999) : (decompose m).1 ≤ 9 := by
  change m / 1000 ≤ 9
  omega

theorem decompose_millivolts_le (m : Nat) : (decompose m).2 ≤ 999 :=
  Nat.le_of_lt_succ (Nat.mod_lt m (by decide))

end Sys2Proof.Machine

section
open Sys2Proof Sys2Proof.Machine

/-- Settles O34: SECTICK has no phase, so its word is enabled wherever it heads a system trace. -/
theorem sectickCountsAndWraps : Obligations.SectickCountsAndWraps :=
  ⟨fun _ => rfl, fun _ _ hwf hk ht =>
    step_eq_exec (i := .sectick) hwf ht (by decide) hk (fun _ hl => nomatch hl)⟩

/-- Settles O35: POLL's word runs at its one phase, AtPoll, and is refused at the other. -/
theorem pollFollowsLevels : Obligations.PollFollowsLevels := by
  refine fun r m s => ⟨exec_poll r m s, decode_pollWord r m, fun hwf hk rest ht => ⟨fun hl => ?_, fun hl => ?_⟩⟩
  · exact step_eq_exec (i := .poll r m) hwf ht (decode_pollWord r m) hk (fun _ hp => hl.trans (Option.some.inj hp))
  · exact ⟨_, _, step_eq_refuse_outOfPhase (i := .poll r m) hwf ht (decode_pollWord r m) hk rfl (by simp [hl])⟩

/-- Settles O37: 3300 mV lies within the clamp's range. -/
theorem clampIsMinimum : Obligations.ClampIsMinimum :=
  ⟨fun _ => rfl, fun _ h => clampMv_of_le (h.trans (by decide)), sample_millivolts_le⟩

/-- Settles O38: the quotient and the remainder by 1000, whose digits are the table's VOLT entries by definition. -/
theorem decomposeRecomposes : Obligations.DecomposeRecomposes :=
  fun m h => ⟨rfl, decompose_recomposes m, decompose_volts_le h, decompose_millivolts_le m,
    fun _ => ⟨rfl, rfl, rfl, rfl⟩⟩

end

/-! What every step does to the two sticky marks `faults` and `refused` (60_exceptions.md R205). -/

namespace Sys2Proof.Machine

/-- The recorded faults and the mark of a refusal are those of `s`. -/
def SameMarks (s t : State) : Prop := t.faults = s.faults ∧ t.refused = s.refused

/-- The state this outcome leaves, for a step begun at `s`, has the marks of `s` and, with a stop, the mark of that stop. -/
def MarksOnlyItsStop (s : State) (o : StepOutcome) : Prop :=
  match o with
  | .next t => SameMarks s t
  | .fault f => f.after.faults = insertFault f.entry s.faults ∧ f.after.refused = s.refused
  | .refused r => (r.after s).faults = s.faults ∧ (r.after s).refused = true

theorem marksOnlyItsStop_raise {s u : State} (e : FaultEntry) (h : SameMarks s u) : MarksOnlyItsStop s (raise e u) := by
  obtain ⟨hf, hr⟩ := h
  simp [MarksOnlyItsStop, raise, hf, hr]

theorem setPin_sameMarks (n : Pin) (v : Bit) (s : State) : SameMarks s (setPin n v s) := by
  cases n <;> exact ⟨rfl, rfl⟩

theorem risingEdge_sameMarks (n : Pin) (s : State) : SameMarks s (risingEdge n s) := by
  cases n <;> exact ⟨rfl, rfl⟩

theorem SameMarks.trans {s t u : State} (h : SameMarks s t) (h' : SameMarks t u) : SameMarks s u :=
  ⟨h'.1.trans h.1, h'.2.trans h.2⟩

theorem pinWrite_sameMarks (n : Pin) (v : Bit) (s : State) : SameMarks s (pinWrite n v s) := by
  unfold pinWrite
  split
  · exact (setPin_sameMarks n v s).trans (risingEdge_sameMarks n _)
  · exact setPin_sameMarks n v s

theorem exec_marksOnlyItsStop (i : Instr) (s : State) : MarksOnlyItsStop s (exec i s) := by
  cases i with
  | segrd d =>
    simp only [exec, execSegrd]
    split
    · exact ⟨rfl, rfl⟩
    · exact marksOnlyItsStop_raise _ ⟨rfl, rfl⟩
  | selrd p => exact ⟨rfl, rfl⟩
  | emit a b =>
    rw [exec, execEmit]
    cases hc : s.clock
    · rw [emitOp_of_clock_low a b s hc]; exact ⟨rfl, rfl⟩
    · rw [emitOp_of_clock_high a b s hc]; exact marksOnlyItsStop_raise _ ⟨rfl, rfl⟩
  | pinwLatch v => exact pinWrite_sameMarks .latch v s
  | pinwClock v => exact pinWrite_sameMarks .clock v s
  | pinwData v => exact pinWrite_sameMarks .data v s
  | refresh => exact ⟨rfl, rfl⟩
  | render mv =>
    rw [exec]
    rcases execRender_cases mv s with ⟨_, h⟩ | ⟨_, _, h⟩ | ⟨_, _, _, h⟩ | ⟨_, _, _, _, h⟩ | ⟨_, _, _, _, _, _, h⟩ <;> rw [h]
    · exact marksOnlyItsStop_raise _ ⟨rfl, rfl⟩
    · exact marksOnlyItsStop_raise _ ⟨rfl, rfl⟩
    · exact ⟨rfl, rfl⟩
    · exact marksOnlyItsStop_raise _ ⟨rfl, rfl⟩
    · exact ⟨rfl, rfl⟩
  | sectick => exact ⟨rfl, rfl⟩
  | poll r m => rw [exec_poll]; exact ⟨rfl, rfl⟩

/-- The refusals raised before an operation runs set `refused` alone. -/
theorem stepItem_marksOnlyItsStop (item : TraceItem) (s : State) : MarksOnlyItsStop s (stepItem item s) := by
  rcases stepItem_cases item s with ⟨_, h⟩ | ⟨i, _, ⟨_, h⟩ | ⟨_, _, h⟩ | ⟨_, _, h⟩⟩ <;> rw [h]
  · exact ⟨rfl, rfl⟩
  · exact ⟨rfl, rfl⟩
  · exact ⟨rfl, rfl⟩
  · exact exec_marksOnlyItsStop i s

/-- Taking an entry off the trace touches no mark. -/
theorem MarksOnlyItsStop.of_setTrace {rest : List TraceItem} {s : State} {o : StepOutcome}
    (h : MarksOnlyItsStop (setTrace rest s) o) : MarksOnlyItsStop s o := by
  cases o with
  | next _ => exact h
  | fault _ => exact h
  | refused r => cases r <;> exact h

theorem step_marksOnlyItsStop (s : State) : MarksOnlyItsStop s (step s) := by
  rcases step_cases s with ⟨_, _, h⟩ | ⟨_, _, h⟩ | ⟨_, item, rest, _, h⟩ <;> rw [h]
  · exact ⟨rfl, rfl⟩
  · exact ⟨rfl, rfl⟩
  · exact (stepItem_marksOnlyItsStop item _).of_setTrace

theorem marksOnlyItsStop_of_step_eq {s : State} {o : StepOutcome} (h : step s = o) : MarksOnlyItsStop s o :=
  h ▸ step_marksOnlyItsStop s

theorem advance_of_fault {s : State} {f : Fault} (h : step s = .fault f) :
    (advance s).faults = insertFault f.entry s.faults ∧ (advance s).refused = s.refused := by
  rw [advance, h]
  exact marksOnlyItsStop_of_step_eq h

theorem advance_of_refused {s : State} {r : Refusal} (h : step s = .refused r) :
    (advance s).faults = s.faults ∧ (advance s).refused = true := by
  rw [advance, h]
  exact marksOnlyItsStop_of_step_eq h

theorem advance_of_next {s t : State} (h : step s = .next t) : SameMarks s (advance s) := by
  rw [advance, h]
  exact marksOnlyItsStop_of_step_eq h

/-- Every fault recorded at `s` is still recorded at `t`, and so is the mark of a refusal. -/
def KeepsMarks (s t : State) : Prop :=
  (∀ e ∈ s.faults, e ∈ t.faults) ∧ (s.refused = true → t.refused = true)

theorem KeepsMarks.trans {s t u : State} (h : KeepsMarks s t) (h' : KeepsMarks t u) : KeepsMarks s u :=
  ⟨fun e he => h'.1 e (h.1 e he), fun hr => h'.2 (h.2 hr)⟩

theorem advance_keepsMarks (s : State) : KeepsMarks s (advance s) := by
  cases h : step s with
  | next t =>
    obtain ⟨hf, hr⟩ := advance_of_next h
    exact ⟨fun e he => hf ▸ he, fun hs => hr.trans hs⟩
  | fault f =>
    obtain ⟨hf, hr⟩ := advance_of_fault h
    exact ⟨fun e he => hf ▸ (mem_insertFault _ _ _).mpr (.inr he), fun hs => hr.trans hs⟩
  | refused r =>
    obtain ⟨hf, hr⟩ := advance_of_refused h
    exact ⟨fun e he => hf ▸ he, fun _ => hr⟩

theorem advanceN_keepsMarks (k : Nat) (s : State) : KeepsMarks s (advanceN k s) :=
  advanceN_keeps (p := KeepsMarks s) (fun t h => h.trans (advance_keepsMarks t)) k ⟨fun _ he => he, id⟩

/-- A state with either mark is not final (00_scope.md R13). -/
theorem isFinal_of_marked {s : State} (h : s.faults ≠ [] ∨ s.refused = true) : s.isFinal = false := by
  rcases h with h | h <;> simp [State.isFinal, State.clean, h]

theorem KeepsMarks.marked {s t : State} (h : KeepsMarks s t) (hs : s.faults ≠ [] ∨ s.refused = true) :
    t.faults ≠ [] ∨ t.refused = true := by
  rcases hs with hs | hs
  · obtain ⟨e, he⟩ := List.exists_mem_of_ne_nil _ hs
    exact .inl (List.ne_nil_of_mem (h.1 e he))
  · exact .inr (h.2 hs)

end Sys2Proof.Machine

section
open Sys2Proof.Machine

/-- Settles O48: a stop adds its own mark, every step keeps the marks that stand, and so does any number of steps. -/
theorem marksAreSticky : Obligations.MarksAreSticky := by
  refine ⟨fun s f h => ?_, fun s r h => (advance_of_refused h).2, fun k s => ?_⟩
  · rw [(advance_of_fault h).1, mem_insertFault]
    exact .inl rfl
  · have hk := advanceN_keepsMarks k s
    exact ⟨hk.1, hk.2, fun hs => isFinal_of_marked (hk.marked hs)⟩

end

/-! The reset state, element by element, and the two interrupts' first words (70_reset_and_hazards.md R230). -/

namespace Sys2Proof.Machine

/-- No cell of the shift chain or of the storage register is known at reset (70_reset_and_hazards.md R230). -/
theorem resetWith_cells_unknown (P : Params) (i : Nat) (h : i < 16) :
    (State.resetWith P).shiftChain[i] = .unknown ∧ (State.resetWith P).storage[i] = .unknown :=
  ⟨Vector.getElem_replicate h, Vector.getElem_replicate h⟩

end Sys2Proof.Machine

section
open Sys2Proof Sys2Proof.Machine

/-- Settles O40: the values are those `State.resetWith` writes. The default parameters pass their checks, so at reset each
interrupt's word is enabled by the clause on enabled words of its own operation. -/
theorem resetState : Obligations.ResetState := by
  have hwf : State.reset.params.wf = true := by decide
  refine ⟨fun P => ⟨rfl, rfl, rfl, rfl, rfl, rfl, rfl, resetWith_cells_unknown P, rfl, rfl, rfl, rfl, rfl, rfl⟩,
    rfl, rfl, ?refresh, ?tick⟩
  case refresh => exact ⟨_, refreshSetsPending.2 _ [] hwf rfl rfl, rfl⟩
  case tick => exact ⟨_, sectickCountsAndWraps.2 _ [] hwf rfl rfl, rfl⟩

end

/-! The encoding (30_encoding.md R75 to R79): what the encoder writes, the decoder reads back, and each word that decodes is the
word of its operation. Both follow from how the bit fields of an operand fill a byte. -/

namespace Sys2Proof

/-! ### Operand fields of a byte -/

/-- A byte whose high bits are 0 is its low `m` bits under zeros. -/
theorem zero_append_low {n m : Nat} {a : BitVec (n + m)} (h : a.extractLsb' m n = 0) :
    0#n ++ a.extractLsb' 0 m = a := by
  have hs : a.extractLsb' m n ++ a.extractLsb' 0 m = a := by
    rw [BitVec.extractLsb'_append_extractLsb'_eq_extractLsb' (by omega)]
    simp
  rwa [h] at hs

theorem ofBool_getLsbD_zero (b : BitVec 8) : BitVec.ofBool (b.getLsbD 0) = b.extractLsb' 0 1 := by
  revert b; decide

theorem ofBool_append_getLsbD (a : BitVec 8) :
    BitVec.ofBool (a.getLsbD 1) ++ BitVec.ofBool (a.getLsbD 0) = a.extractLsb' 0 2 := by
  revert a; decide

/-! ### The decoder undoes the encoder -/

theorem decode_encode (i : Instr) : decode (encode i) = .ok i := by
  cases i with
  | segrd d => rw [encode, decode_opWord]; revert d; decide
  | selrd p => rw [encode, decode_opWord]; revert p; decide
  | emit a b => simp [encode, decode_opWord, decodeFields]
  | pinwLatch v => rw [encode, decode_opWord]; revert v; decide
  | pinwClock v => rw [encode, decode_opWord]; revert v; decide
  | pinwData v => rw [encode, decode_opWord]; revert v; decide
  | refresh => decide
  | render mv =>
    have hs : mv.extractLsb' 8 8 ++ mv.extractLsb' 0 8 = mv := Machine.emitWord_split mv
    simp [encode, decode_opWord, decodeFields, hs]
  | sectick => decide
  | poll r m => rw [encode, decode_opWord]; revert r m; decide

/-- The byte decoder reads the three fields of a word as the word decoder does (30_encoding.md R79). -/
theorem decodeBytes_fields {w : OpWord} {i : Instr} (h : decode w = .ok i) (rest : List Bits8) :
    decodeBytes (opField w :: aField w :: bField w :: rest) = .ok (i, rest) := by
  rw [decode] at h
  rw [decodeBytes, h]

/-! ### A word that decodes is the encoding of its operation -/

theorem eq_zero_append_ofBool {b : Bits8} (h : b.extractLsb' 1 7 = 0) : 0#7 ++ BitVec.ofBool (b.getLsbD 0) = b := by
  rw [ofBool_getLsbD_zero, zero_append_low (n := 7) h]

theorem eq_zero_append_two {a : Bits8} (h : a.extractLsb' 2 6 = 0) :
    0#6 ++ BitVec.ofBool (a.getLsbD 1) ++ BitVec.ofBool (a.getLsbD 0) = a := by
  rw [BitVec.append_assoc, ofBool_append_getLsbD]
  exact zero_append_low (n := 6) h

theorem encode_of_decodePinw {a b : Bits8} {i : Instr} (h : decodePinw a b = .ok i) : encode i = opWord 0x04 a b := by
  unfold decodePinw at h
  split_ifs at h with hb h0 h1 h2
  all_goals cases h
  all_goals rw [encode, eq_zero_append_ofBool (not_not.mp hb)]
  · rw [h0]
  · rw [h1]
  · rw [h2]

theorem encode_render_append (a b : Bits8) : encode (.render (a ++ b)) = opWord 0x11 a b := by
  have ha : (a ++ b).extractLsb' 8 8 = a := BitVec.extractLsb'_append_eq_left
  have hb : (a ++ b).extractLsb' 0 8 = b := BitVec.extractLsb'_append_eq_right
  rw [encode, ha, hb]

theorem encode_of_decodeFields {op a b : Bits8} {i : Instr} (h : decodeFields op a b = .ok i) :
    encode i = opWord op a b := by
  unfold decodeFields at h
  split_ifs at h with hop hf hop hf hop hop hop hf hop hop hf hop hf
  · obtain ⟨ha, rfl⟩ := hf
    cases h
    rw [encode, zero_append_low (n := 4) ha, hop]
  · obtain ⟨ha, rfl⟩ := hf
    cases h
    rw [encode, zero_append_low (n := 6) ha, hop]
  · cases h
    rw [encode, hop]
  · rw [encode_of_decodePinw h, hop]
  · obtain ⟨rfl, rfl⟩ := hf
    cases h
    rw [encode, hop]
  · cases h
    rw [hop]
    exact encode_render_append a b
  · obtain ⟨rfl, rfl⟩ := hf
    cases h
    rw [encode, hop]
  · obtain ⟨ha, rfl⟩ := hf
    cases h
    rw [encode, eq_zero_append_two ha, hop]

theorem encode_of_decode {w : OpWord} {i : Instr} (h : decode w = .ok i) : encode i = w :=
  (encode_of_decodeFields h).trans (opWord_fields w)

/-! ### The opcode map -/

theorem opWord_and (op a b op' a' b' : Bits8) :
    opWord op a b &&& opWord op' a' b' = opWord (op &&& op') (a &&& a') (b &&& b') := by
  rw [opWord, opWord, BitVec.and_append, BitVec.and_append, ← opWord]

theorem eq_of_and_allOnes {b p : Bits8} (h : b &&& 0xFF = p) : b = p := by
  rwa [show (0xFF : Bits8) = BitVec.allOnes 8 from rfl, BitVec.and_allOnes] at h

/-- A word that matches a row with the op byte `op` has that byte, and its operand bytes match under the row's masks for them. -/
theorem exists_operands_of_and_eq {w : OpWord} (op ma mb pa pb : Bits8) (h : w &&& opWord 0xFF ma mb = opWord op pa pb) :
    ∃ a b, w = opWord op a b ∧ a &&& ma = pa ∧ b &&& mb = pb := by
  rw [← opWord_fields w, opWord_and] at h
  have hop : opField w = op := eq_of_and_allOnes (by simpa using congrArg opField h)
  have ha : aField w &&& ma = pa := by simpa using congrArg aField h
  have hb : bField w &&& mb = pb := by simpa using congrArg bField h
  exact ⟨aField w, bField w, by rw [← hop, opWord_fields], ha, hb⟩

theorem high_four_of_and {a : Bits8} : a &&& 0xF0 = 0 → a.extractLsb' 4 4 = 0 := by
  revert a; decide

theorem high_six_of_and {a : Bits8} : a &&& 0xFC = 0 → a.extractLsb' 2 6 = 0 := by
  revert a; decide

theorem high_seven_of_and {b : Bits8} : b &&& 0xFE = 0 → b.extractLsb' 1 7 = 0 := by
  revert b; decide

/-- A word that matches a row is the word of an operation of the row (30_encoding.md R77). -/
theorem exists_encode_of_matches {r : OpcodeRow} (hr : r ∈ opcodeTable) {w : OpWord} (h : w &&& r.mask = r.pattern) :
    ∃ i, encode i = w ∧ i.row = r := by
  simp only [opcodeTable, List.mem_cons, List.not_mem_nil, or_false] at hr
  rcases hr with rfl | rfl | rfl | rfl | rfl | rfl | rfl | rfl | rfl | rfl
  · obtain ⟨a, b, rfl, ha, hb⟩ := exists_operands_of_and_eq 0x01 0xF0 0xFF 0 0 h
    refine ⟨.segrd (a.extractLsb' 0 4), ?_, rfl⟩
    rw [encode, zero_append_low (n := 4) (high_four_of_and ha), eq_of_and_allOnes hb]
  · obtain ⟨a, b, rfl, ha, hb⟩ := exists_operands_of_and_eq 0x02 0xFC 0xFF 0 0 h
    refine ⟨.selrd (a.extractLsb' 0 2), ?_, rfl⟩
    rw [encode, zero_append_low (n := 6) (high_six_of_and ha), eq_of_and_allOnes hb]
  · obtain ⟨a, b, rfl, -⟩ := exists_operands_of_and_eq 0x03 0 0 0 0 h
    exact ⟨.emit a b, rfl, rfl⟩
  · obtain ⟨a, b, rfl, ha, hb⟩ := exists_operands_of_and_eq 0x04 0xFF 0xFE 0x00 0 h
    refine ⟨.pinwLatch (b.getLsbD 0), ?_, rfl⟩
    rw [encode, eq_zero_append_ofBool (high_seven_of_and hb), eq_of_and_allOnes ha]
  · obtain ⟨a, b, rfl, ha, hb⟩ := exists_operands_of_and_eq 0x04 0xFF 0xFE 0x01 0 h
    refine ⟨.pinwClock (b.getLsbD 0), ?_, rfl⟩
    rw [encode, eq_zero_append_ofBool (high_seven_of_and hb), eq_of_and_allOnes ha]
  · obtain ⟨a, b, rfl, ha, hb⟩ := exists_operands_of_and_eq 0x04 0xFF 0xFE 0x02 0 h
    refine ⟨.pinwData (b.getLsbD 0), ?_, rfl⟩
    rw [encode, eq_zero_append_ofBool (high_seven_of_and hb), eq_of_and_allOnes ha]
  · obtain ⟨a, b, rfl, ha, hb⟩ := exists_operands_of_and_eq 0x10 0xFF 0xFF 0 0 h
    exact ⟨.refresh, by rw [encode, eq_of_and_allOnes ha, eq_of_and_allOnes hb], rfl⟩
  · obtain ⟨a, b, rfl, -⟩ := exists_operands_of_and_eq 0x11 0 0 0 0 h
    exact ⟨.render (a ++ b), encode_render_append a b, rfl⟩
  · obtain ⟨a, b, rfl, ha, hb⟩ := exists_operands_of_and_eq 0x20 0xFF 0xFF 0 0 h
    exact ⟨.sectick, by rw [encode, eq_of_and_allOnes ha, eq_of_and_allOnes hb], rfl⟩
  · obtain ⟨a, b, rfl, ha, hb⟩ := exists_operands_of_and_eq 0x21 0xFC 0xFF 0 0 h
    refine ⟨.poll (a.getLsbD 1) (a.getLsbD 0), ?_, rfl⟩
    rw [encode, eq_zero_append_two (high_six_of_and ha), eq_of_and_allOnes hb]

/-- Every operation's row is in the map, and its word matches it (30_encoding.md R77). -/
theorem encode_matches_row : ∀ i : Instr, i.row ∈ opcodeTable ∧ encode i &&& i.row.mask = i.row.pattern
  | .segrd d => Laws.RowMatch.segrd d
  | .selrd p => Laws.RowMatch.selrd p
  | .emit a b => Laws.RowMatch.emit a b
  | .pinwLatch v => Laws.RowMatch.pinwLatch v
  | .pinwClock v => Laws.RowMatch.pinwClock v
  | .pinwData v => Laws.RowMatch.pinwData v
  | .refresh => Laws.RowMatch.refresh
  | .render mv => Laws.RowMatch.render mv
  | .sectick => Laws.RowMatch.sectick
  | .poll r m => Laws.RowMatch.poll r m

theorem row_mnemonic (i : Instr) : i.row.mnemonic = i.mnemonic := by cases i <;> rfl

theorem row_agent (i : Instr) : i.row.agent = i.agent := by cases i <;> rfl

/-- Two rows that differ in a bit both of them fix. -/
def OpcodeRow.Clashes (r q : OpcodeRow) : Prop := r.pattern &&& q.mask ≠ q.pattern &&& r.mask

theorem OpcodeRow.Clashes.not_both {r q : OpcodeRow} (h : r.Clashes q) (w : OpWord) :
    ¬(w &&& r.mask = r.pattern ∧ w &&& q.mask = q.pattern) := by
  rintro ⟨hr, hq⟩
  apply h
  rw [← hr, ← hq, BitVec.and_assoc, BitVec.and_assoc, BitVec.and_comm r.mask]

theorem opcodeTable_pairwise_clashes : opcodeTable.Pairwise OpcodeRow.Clashes := by
  unfold OpcodeRow.Clashes
  decide

end Sys2Proof

section
open Sys2Proof

/-- Settles O1: the byte decoder reads the same three fields as the word decoder. -/
theorem decodeEncodeRoundTrip : Obligations.DecodeEncodeRoundTrip :=
  fun i rest => ⟨decode_encode i, decodeBytes_fields (decode_encode i) rest⟩

/-- Settles O2, from the branches of the decoder that answer an operation. -/
theorem decodedWordIsItsEncoding : Obligations.DecodedWordIsItsEncoding := fun _ _ => encode_of_decode

/-- Settles O3: a word that matches a row is the word of an operation of that row, and each operation's word matches its row. -/
theorem decoderFollowsOpcodeMap : Obligations.DecoderFollowsOpcodeMap := by
  refine ⟨fun r hr w h => ?_, fun w i h => ?_⟩
  · obtain ⟨i, rfl, rfl⟩ := exists_encode_of_matches hr h
    exact ⟨i, decode_encode i, rfl, (row_mnemonic i).symm, (row_agent i).symm⟩
  · rw [← encode_of_decode h]
    exact encode_matches_row i

/-- Settles O4: any two rows differ in a bit that both fix. -/
theorem noWordMatchesTwoRows : Obligations.NoWordMatchesTwoRows :=
  opcodeTable_pairwise_clashes.imp fun h => h.not_both

/-- Settles O5, by running the decoder on the fourteen words. -/
theorem writtenWordsDecode : Obligations.WrittenWordsDecode := by
  unfold Obligations.WrittenWordsDecode
  decide

end

/-! The step's checks, in the order of 60_exceptions.md R206: the parameters, then the word, its agent and trace kind, and its
phase. -/

namespace Sys2Proof.Machine

/-! ### The refusals of a step -/

theorem step_of_failedCheck {s : State} {c : ParamCheck} (h : s.params.failedCheck = some c) :
    step s = refuse (.badParams c) s := by
  simp [step, stepChecked, h]

theorem step_of_wf {s : State} {item : TraceItem} {rest : List TraceItem} (hwf : s.params.wf = true)
    (ht : s.trace = item :: rest) : step s = stepItem item (setTrace rest s) := by
  have hf := (failedCheck_eq_none_iff s.params).mpr hwf
  simp [step, stepChecked, stepTrace, hf, ht]

theorem failedCheck_exists_of_not_wf {P : Params} (h : P.wf = false) : ∃ c, P.failedCheck = some c := by
  rw [← Option.isSome_iff_exists, ← Option.ne_none_iff_isSome, Ne, failedCheck_eq_none_iff, h]
  exact Bool.false_ne_true

/-- The checks are tried in the order R7 lists them (00_scope.md R7; log 5). -/
theorem failedCheck_eq_some_iff (P : Params) (c : ParamCheck) : P.failedCheck = some c ↔
    (c = .oneDigit ∧ P.oneDigit = false) ∨
    (c = .distinctLines ∧ P.oneDigit = true ∧ P.distinctLines = false) ∨
    (c = .indFree ∧ P.oneDigit = true ∧ P.distinctLines = true ∧ P.indFree = false) := by
  unfold Params.failedCheck
  cases P.oneDigit <;> cases P.distinctLines <;> cases P.indFree <;> simp [eq_comm]

theorem stepItem_of_invalid {item : TraceItem} (h : ∀ i, decode item.word ≠ .ok i) (s : State) :
    stepItem item s = refuse (.undecodable item.word) s := by
  rcases stepItem_cases item s with ⟨-, hs⟩ | ⟨i, hd, -⟩
  · exact hs
  · exact absurd hd (h i)

theorem stepItem_of_not_admitted {item : TraceItem} {s : State} {i : Instr} (hd : decode item.word = .ok i)
    (h : item.agent ≠ i.agent ∨ s.traceKind ≠ i.traceKind) : stepItem item s = refuse (.wrongTraceKind item.word) s := by
  have ha : admittedIn s.traceKind item.agent i = false := by
    rw [Bool.eq_false_iff, Ne, admittedIn_iff, not_and_or]
    exact h
  simp [stepItem, hd, ha]

theorem stepItem_ne_badParams (item : TraceItem) (s : State) (c : ParamCheck) (t : State) :
    stepItem item s ≠ .refused (.badParams c t) := by
  rcases stepItem_cases item s with ⟨-, h⟩ | ⟨i, -, ⟨-, h⟩ | ⟨-, -, h⟩ | ⟨-, -, h⟩⟩ <;> rw [h]
  · simp [refuse]
  · simp [refuse]
  · simp [refuse]
  · exact exec_ne_refused i s _

/-- Only the check of the parameters answers `BadParams`. -/
theorem step_eq_badParams_iff (s : State) (c : ParamCheck) (t : State) :
    step s = .refused (.badParams c t) ↔ t = markRefused s ∧ s.params.failedCheck = some c := by
  rcases step_cases s with ⟨d, hd, h⟩ | ⟨hwf, -, h⟩ | ⟨hwf, item, rest, -, h⟩
  · simp [h, hd, refuse, and_comm, eq_comm]
  · simp [h, (failedCheck_eq_none_iff s.params).mpr hwf]
  · simp [h, (failedCheck_eq_none_iff s.params).mpr hwf, stepItem_ne_badParams]

/-! ### The checks of a parameter set, bit by bit -/

/-- A selector pattern restricted to the mask is the mask without one line exactly when, of the masked lines, it enables that
line alone (00_scope.md R7 (a)). -/
theorem and_mask_eq_iff (sel mask : Bits8) (line : Fin 8) : sel &&& mask = mask &&& ~~~(1#8 <<< line.val) ↔
    ∀ b : Fin 8, mask.getLsbD b.val = true → (sel.getLsbD b.val = false ↔ b = line) := by
  have hbit : ∀ b : Fin 8, ((sel &&& mask).getLsbD b.val = (mask &&& ~~~(1#8 <<< line.val)).getLsbD b.val) ↔
      (mask.getLsbD b.val = true → (sel.getLsbD b.val = false ↔ b = line)) := by
    intro b
    rw [BitVec.getLsbD_and, BitVec.getLsbD_and, BitVec.getLsbD_not, oneHot_getLsbD]
    cases mask.getLsbD b.val <;> cases sel.getLsbD b.val <;> simp
  rw [← forall_congr' hbit]
  exact ⟨fun h b => by rw [h], fun h => BitVec.eq_of_getLsbD_eq fun i hi => h ⟨i, hi⟩⟩

theorem oneDigit_iff (P : Params) : P.oneDigit = true ↔ ∀ (p : Fin 4) (b : Fin 8),
    P.digitLineMask.getLsbD b.val = true → (P.selTable[p].getLsbD b.val = false ↔ b = P.digitLine[p]) := by
  simp only [Params.oneDigit, List.all_eq_true, List.mem_finRange, true_implies, beq_iff_eq, and_mask_eq_iff]

theorem distinctLines_iff (P : Params) : P.distinctLines = true ↔
    (∀ p q : Fin 4, P.digitLine[p] = P.digitLine[q] → p = q) ∧
      ∀ p : Fin 4, P.digitLineMask.getLsbD P.digitLine[p].val = true := by
  simp only [Params.distinctLines, Bool.and_eq_true, List.all_eq_true, List.mem_finRange, true_implies, Bool.or_eq_true,
    bne_iff_ne, beq_iff_eq, ← imp_iff_not_or]

theorem indFree_iff (P : Params) : P.indFree = true ↔ ∀ x : Segment, P.segBit.get x ≠ P.indBit := by
  simp only [Params.indFree, List.all_eq_true, bne_iff_ne]
  exact ⟨fun h x => h x (by cases x <;> decide), fun h x _ => h x⟩

theorem wf_iff (P : Params) : P.wf = true ↔ P.oneDigit = true ∧ P.distinctLines = true ∧ P.indFree = true := by
  simp only [Params.wf, Bool.and_eq_true, and_assoc]

/-! ### A word the host places -/

theorem tableWord_toNat (w : OpWord) : tableWord 24 w.toNat = w := by
  rw [tableWord, Nat.mod_eq_of_lt w.isLt, BitVec.ofNat_toNat, BitVec.setWidth_eq]

theorem decodeTableWord_encode (i : Instr) : decodeTableWord 24 (encode i).toNat = some i := by
  have hlt : (encode i).toNat % 2 ^ 24 < 2 ^ 24 := Nat.mod_lt _ (by decide)
  have hd : decode (BitVec.ofNat 24 ((encode i).toNat % 2 ^ 24)) = .ok i :=
    (congrArg decode (tableWord_toNat (encode i))).trans (decode_encode i)
  simp only [decodeTableWord, if_pos hlt, hd]

theorem withFetchWord_encode (i : Instr) (s : State) : s.withFetchWord 24 (encode i).toNat = { s with
    traceKind := i.traceKind, lphase := i.phase.getD s.lphase, trace := itemOf i :: s.trace } := by
  rw [State.withFetchWord, tableWord_toNat, placeWord, decode_encode]
  rfl

end Sys2Proof.Machine

section
open Sys2Proof Sys2Proof.Machine

/-- Settles O6: it is the step that runs an enabled word. -/
theorem stepRunsDecodedInstruction : Obligations.StepRunsDecodedInstruction :=
  fun _ _ _ _ hwf ht hd hk hp => step_eq_exec hwf ht hd hk hp

/-- Settles O7, from the one refusal each failed check raises. -/
theorem refusalsComeInOrder : Obligations.RefusalsComeInOrder := by
  refine fun s => ⟨fun hwf => ?_, fun hwf item rest ht => ⟨fun hd => ?_, fun i hd => ⟨fun h => ?_, fun ha hk hp => ?_⟩⟩⟩
  · obtain ⟨c, hc⟩ := failedCheck_exists_of_not_wf hwf
    exact ⟨c, hc, step_of_failedCheck hc⟩
  · exact (step_of_wf hwf ht).trans (stepItem_of_invalid hd _)
  · exact (step_of_wf hwf ht).trans (stepItem_of_not_admitted hd h)
  · obtain ⟨agent, w⟩ := item
    obtain rfl : agent = i.agent := ha
    obtain ⟨l, hl, hne⟩ := hp
    exact step_eq_refuse_outOfPhase hwf ht hd hk hl hne

/-- Settles O8: the placed word is the encoder's, which decodes to the operation and stands at its phase. -/
theorem placedWordRunsNext : Obligations.PlacedWordRunsNext := by
  refine fun s i hwf => ⟨decodeTableWord_encode i, i.phase.getD s.lphase, fun hp => by rw [hp]; rfl, ?_⟩
  rw [withFetchWord_encode]
  exact step_eq_exec hwf rfl (decode_encode i) rfl fun l hl => by simp [hl]

/-- Settles O9: each check read off bit by bit, and `BadParams` is the refusal of the first check that fails. -/
theorem parameterChecksGuardEveryStep : Obligations.ParameterChecksGuardEveryStep :=
  ⟨fun P => ⟨oneDigit_iff P, distinctLines_iff P, indFree_iff P, wf_iff P, fun _ => rfl⟩,
    fun s c t => (step_eq_badParams_iff s c t).trans (and_congr_right fun _ => failedCheck_eq_some_iff s.params c)⟩

end

/-! The lookup ROMs: the read of an address is the entry of the listed address space (20_memory.md R50, R51), and the indicator's
lane (40_rom_lookup.md R104). -/

namespace Sys2Proof.Machine

theorem execSegrd_mapped (d : BitVec 4) (s : State) (h : d.toNat < 10) :
    execSegrd d s = .next (returnByte s.params.segTable[d.toNat] s) := by
  simp only [execSegrd, memReadSeg_mapped s d h]

theorem execSegrd_unmapped (d : BitVec 4) (s : State) (h : 9 < d.toNat) :
    execSegrd d s = raise (.segAddrRange d) s := by
  simp only [execSegrd, memReadSeg_unmapped s d h]

/-- A listing of bytes at rising addresses from `k` on is read at the address of each. -/
theorem read_zip_range' (l : List Bits8) (n k j : Nat) (hn : l.length = n) :
    Memory.read ((List.range' k n).zip l) (k + j) = l[j]? := by
  induction l generalizing n k j with
  | nil => subst hn; rfl
  | cons x l ih =>
    subst hn
    simp only [List.length_cons, List.range'_succ, List.zip_cons_cons, Memory.read]
    cases j with
    | zero => simp
    | succ j =>
      rw [if_neg (by omega), List.getElem?_cons_succ, ← ih l.length (k + 1) j rfl]
      congr 1
      omega

theorem read_segMemory (s : State) (a : Nat) : (segMemory s).read a = s.params.segTable[a]? := by
  have h := read_zip_range' s.params.segTable.toList 10 0 a (by simp)
  rw [Nat.zero_add] at h
  rw [segMemory, List.range_eq_range', h, Vector.getElem?_toList]

theorem read_selMemory (s : State) (a : Nat) : (selMemory s).read a = s.params.selTable[a]? := by
  have h := read_zip_range' s.params.selTable.toList 4 0 a (by simp)
  rw [Nat.zero_add] at h
  rw [selMemory, List.range_eq_range', h, Vector.getElem?_toList]

theorem memReadSeg_eq (s : State) (a : BitVec 4) : memReadSeg s a = s.params.segTable[a.toNat]? := by
  rcases Nat.lt_or_ge a.toNat 10 with h | h
  · rw [memReadSeg_mapped s a h, Vector.getElem?_eq_getElem h]
  · rw [memReadSeg_unmapped s a h, Vector.getElem?_eq_none h]

theorem memReadSel_eq (s : State) (p : BitVec 2) : some (memReadSel s p) = s.params.selTable[p.toNat]? :=
  (Vector.getElem?_eq_getElem p.isLt).symm

theorem withInd_getLsbD (P : Params) (pat : Bits8) (b : Fin 8) :
    (withInd P pat).getLsbD b.val = (pat.getLsbD b.val && decide (b ≠ P.indBit)) := by
  rw [withInd, BitVec.getLsbD_and, BitVec.getLsbD_not, oneHot_getLsbD]
  simp

theorem withInd_of_clear {P : Params} {pat : Bits8} (h : pat.getLsbD P.indBit.val = false) : withInd P pat = pat := by
  refine BitVec.eq_of_getLsbD_eq fun i hi => (withInd_getLsbD P pat ⟨i, hi⟩).trans ?_
  by_cases hb : (⟨i, hi⟩ : Fin 8) = P.indBit
  · rw [← hb] at h
    simp [h]
  · simp [hb]

theorem withInd_indBit (P : Params) (pat : Bits8) : (withInd P pat).getLsbD P.indBit.val = false := by
  rw [withInd_getLsbD, decide_eq_false (fun h => h rfl), Bool.and_false]

end Sys2Proof.Machine

section
open Sys2Proof Sys2Proof.Machine

/-- Settles O10: the two cases of the table's range. -/
theorem segrdReturnsStoredWord : Obligations.SegrdReturnsStoredWord :=
  fun d s => ⟨execSegrd_mapped d s, execSegrd_unmapped d s⟩

/-- Settles O11: every position is a mapped address. -/
theorem selrdReturnsStoredWord : Obligations.SelrdReturnsStoredWord := fun _ _ => rfl

/-- Settles O13: both the listing and the read are the table's entry at the address. -/
theorem readsFollowAddressMap : Obligations.ReadsFollowAddressMap := by
  refine fun s => ⟨segMemory_wf s, selMemory_wf s, fun a => ?_, fun p => ?_, fun a => ?_⟩
  · rw [read_segMemory, memReadSeg_eq]
  · rw [read_selMemory, memReadSel_eq]
  · rw [memReadSeg_eq, Vector.getElem?_eq_none_iff]

/-- Settles O14: idempotence is the case of a pattern whose lane is already clear. -/
theorem indicatorClearsOneLane : Obligations.IndicatorClearsOneLane :=
  fun P pat => ⟨withInd_getLsbD P pat, withInd_of_clear, withInd_of_clear (withInd_indBit P pat)⟩

end

/-! The emit sequence (41_serial_sequencer.md R121 to R131): 16 shifted bits between a write of LATCH 0 and a write of LATCH 1,
what the device holds after them, the edges they make, and what the display shows meanwhile. -/

namespace Sys2Proof.Machine

/-! ### Runs and edges, one operation at a time -/

theorem runOps_cons {i : Instr} {s t : State} (h : exec i s = .next t) (ops : List Instr) :
    runOps (i :: ops) s = runOps ops t := by
  rw [runOps, h]

theorem edgesOf_cons {i : Instr} {s t : State} (h : exec i s = .next t) (n : Pin) (ops : List Instr) :
    edgesOf n (i :: ops) s = (if raises n i s then [(s.data, s.latch)] else []) ++ edgesOf n ops t := by
  simp only [edgesOf, h]
  split <;> rfl

theorem edgesOf_append {xs : List Instr} {s t : State} (h : runOps xs s = .next t) (n : Pin) (ys : List Instr) :
    edgesOf n (xs ++ ys) s = edgesOf n xs s ++ edgesOf n ys t := by
  induction xs generalizing s with
  | nil => cases h; rfl
  | cons i xs ih =>
    cases hi : exec i s with
    | next u =>
      rw [runOps_cons hi] at h
      rw [List.cons_append, edgesOf_cons hi, edgesOf_cons hi, ih h, List.append_assoc]
    | fault f => simp [runOps, hi] at h
    | refused r => simp [runOps, hi] at h

/-! ### The bits of an emit -/

/-- The bits of an emit word in the order they are shifted, E[15] first (41_serial_sequencer.md R121). -/
def bitsOf (E : Bits16) : List Bit := (List.range 16).reverse.map E.getLsbD

/-- The bits of an emit word below the first shifted, E[14] first. -/
def lowBitsOf (E : Bits16) : List Bit := (List.range 15).reverse.map E.getLsbD

theorem bitsOf_eq_cons (E : Bits16) : bitsOf E = E.getLsbD 15 :: lowBitsOf E := rfl

theorem length_lowBitsOf (E : Bits16) : (lowBitsOf E).length = 15 := by simp [lowBitsOf]

theorem lowBitsOf_getElem (E : Bits16) (i : Nat) (h : i < (lowBitsOf E).length) :
    (lowBitsOf E)[i] = E.getLsbD (14 - i) := by
  simp [lowBitsOf]

/-- The state after the bits `bs` were clocked in from CLOCK = 0 (41_serial_sequencer.md R126). -/
def afterBits (bs : List Bit) (s : State) : State :=
  { s with data := bs.getLast?.getD s.data, shiftChain := bs.foldl shiftIn s.shiftChain }

theorem emitSeq_eq (E : Bits16) :
    emitSeq E = .pinwLatch false :: ((bitsOf E).flatMap shiftbit ++ [.pinwLatch true]) := by
  rw [bitsOf, List.flatMap_map]
  rfl

theorem length_bitsOf (E : Bits16) : (bitsOf E).length = 16 := by simp [bitsOf]

theorem bitsOf_getElem (E : Bits16) (i : Nat) (h : i < (bitsOf E).length) : (bitsOf E)[i] = E.getLsbD (15 - i) := by
  simp [bitsOf]

theorem bitsOf_eq_map (E : Bits16) : bitsOf E = (List.range 16).map fun k => E.getLsbD (15 - k) := rfl

theorem afterBits_cons (b : Bit) (bs : List Bit) (s : State) :
    afterBits bs (afterBits [b] s) = afterBits (b :: bs) s := by
  simp [afterBits, List.getLast?_cons]

theorem getLast?_bitsOf (E : Bits16) : (bitsOf E).getLast? = some (E.getLsbD 0) := rfl

theorem length_flatMap_shiftbit (bs : List Bit) : (bs.flatMap shiftbit).length = 3 * bs.length := by
  induction bs with
  | nil => rfl
  | cons b bs ih => simp [shiftbit, ih]; omega

theorem runOps_bits (bs : List Bit) {s : State} (h : s.clock = false) :
    runOps (bs.flatMap shiftbit) s = .next (afterBits bs s) := by
  induction bs generalizing s with
  | nil => rfl
  | cons b bs ih =>
    have hb : runOps (shiftbit b) s = .next (afterBits [b] s) := runOps_shiftbit b s h
    rw [List.flatMap_cons, runOps_append _ _ _ _ hb, ih (s := afterBits [b] s) h, afterBits_cons]

/-- The edges of any wire while bits are clocked in are the edges of the pulse of each, if every pulse makes the same. -/
theorem edgesOf_bits {n : Pin} {edges : Bit → List (Bit × Bit)} {l : Bit}
    (hn : ∀ (b : Bit) (s : State), s.clock = false → s.latch = l → edgesOf n (shiftbit b) s = edges b)
    (bs : List Bit) {s : State} (h : s.clock = false) (hl : s.latch = l) :
    edgesOf n (bs.flatMap shiftbit) s = bs.flatMap edges := by
  induction bs generalizing s with
  | nil => rfl
  | cons b bs ih =>
    rw [List.flatMap_cons, edgesOf_append (runOps_shiftbit b s h), hn b s h hl, List.flatMap_cons]
    exact congrArg _ (ih h hl)

theorem edgesOf_clock_shiftbit (b : Bit) {s : State} (h : s.clock = false) :
    edgesOf .clock (shiftbit b) s = [(b, s.latch)] := by
  simp [edgesOf, shiftbit, raises, exec, execPinwData, execPinwClock, pinWrite_data, h]

theorem edgesOf_latch_shiftbit (b : Bit) (s : State) : edgesOf .latch (shiftbit b) s = [] := by
  simp [edgesOf, shiftbit, raises, exec, execPinwData, execPinwClock]

/-- CLOCK rises once for each bit, with DATA at the bit and LATCH as it was (41_serial_sequencer.md R130). -/
theorem edgesOf_clock_bits (bs : List Bit) {s : State} (h : s.clock = false) :
    edgesOf .clock (bs.flatMap shiftbit) s = bs.map fun b => (b, s.latch) :=
  (edgesOf_bits (fun b _ hc hl => hl ▸ edgesOf_clock_shiftbit b hc) bs h rfl).trans List.map_eq_flatMap.symm

theorem edgesOf_latch_bits (bs : List Bit) {s : State} (h : s.clock = false) :
    edgesOf .latch (bs.flatMap shiftbit) s = [] := by
  rw [edgesOf_bits (fun b t _ _ => edgesOf_latch_shiftbit b t) bs h rfl, List.flatMap_eq_nil_iff]
  exact fun _ _ => rfl

/-- Sixteen bits push every old cell out of the chain (41_serial_sequencer.md R128). -/
theorem foldl_shiftIn_bitsOf (E : Bits16) (chain : Cells16) : (bitsOf E).foldl shiftIn chain = ofBits E := by
  refine cells_ext fun i hi => ?_
  rw [foldl_shiftIn_getElem _ _ i hi, dif_pos (by simpa [length_bitsOf] using hi), bitsOf_getElem, length_bitsOf,
    ofBits_getElem]
  congr 2
  omega

/-- Fifteen bits leave the lowest old cell in the top one (41_serial_sequencer.md R131). -/
theorem foldl_shiftIn_lowBitsOf_top (E : Bits16) (chain : Cells16) :
    ((lowBitsOf E).foldl shiftIn chain)[15] = chain[0] := by
  rw [foldl_shiftIn_getElem _ _ 15 (by decide), dif_neg (by rw [length_lowBitsOf]; decide)]
  simp [length_lowBitsOf]

theorem foldl_shiftIn_lowBitsOf (E : Bits16) (chain : Cells16) (i : Nat) (h : i < 15) :
    ((lowBitsOf E).foldl shiftIn chain)[i] = .known (E.getLsbD i) := by
  rw [foldl_shiftIn_getElem _ _ i (by omega), dif_pos (by rwa [length_lowBitsOf]), lowBitsOf_getElem, length_lowBitsOf]
  congr 2
  omega

/-! ### The wire writes of LATCH and CLOCK -/

theorem exec_pinwLatch_false (s : State) : exec (.pinwLatch false) s = .next (setPin .latch false s) :=
  congrArg Host.Outcome.next (pinWrite_of_no_edge .latch false s (.inr rfl))

theorem exec_pinwLatch_rise {s : State} (h : s.latch = false) :
    exec (.pinwLatch true) s = .next (latchEdge (setPin .latch true s)) :=
  congrArg Host.Outcome.next (pinWrite_latch_rise s h)

theorem exec_pinwData (v : Bit) (s : State) : exec (.pinwData v) s = .next (setPin .data v s) :=
  congrArg Host.Outcome.next (pinWrite_data v s)

theorem exec_pinwClock_of_no_edge {v : Bit} {s : State} (h : s.clock = true ∨ v = false) :
    exec (.pinwClock v) s = .next (setPin .clock v s) :=
  congrArg Host.Outcome.next (pinWrite_of_no_edge .clock v s h)

/-- The bit of a pulse that starts with CLOCK at 1 is not shifted in: the write of 1 makes no edge (41_serial_sequencer.md R131). -/
theorem runOps_shiftbit_clock_high (b : Bit) {s : State} (h : s.clock = true) :
    runOps (shiftbit b) s = .next (setPin .clock false (setPin .data b s)) := by
  have hs : (setPin .data b s).clock = true := h
  rw [shiftbit, runOps_cons (exec_pinwData b s), runOps_cons (exec_pinwClock_of_no_edge (.inl hs)),
    runOps_cons (exec_pinwClock_of_no_edge (.inr rfl))]
  rfl

theorem exec_emit_word (E : Bits16) {s : State} (h : s.clock = false) :
    exec (.emit (E.extractLsb' 8 8) (E.extractLsb' 0 8)) s = .next { s with
      shiftChain := ofBits E, storage := ofBits E, commits := s.commits ++ [ofBits E]
      latch := true, clock := false, data := E.getLsbD 0 } := by
  have hd : (E.extractLsb' 0 8).getLsbD 0 = E.getLsbD 0 := by simp
  rw [exec, execEmit, emitOp_of_clock_low _ _ _ h, emitWord_split, hd]

/-- The sequence copies to the display what its bits leave in the chain (41_serial_sequencer.md R121, R127). -/
theorem runOps_emitSeq_eq {E : Bits16} {s t : State}
    (h : runOps ((bitsOf E).flatMap shiftbit) (setPin .latch false s) = .next t) (ht : t.latch = false) :
    runOps (emitSeq E) s = .next (latchEdge (setPin .latch true t)) := by
  rw [emitSeq_eq, runOps_cons (exec_pinwLatch_false s), runOps_append _ _ _ _ h, runOps_cons (exec_pinwLatch_rise ht)]
  rfl

/-- The wire writes of an emit from CLOCK = 0 do what the atomic EMIT does (41_serial_sequencer.md R129). -/
theorem runOps_emitSeq (E : Bits16) {s : State} (h : s.clock = false) :
    runOps (emitSeq E) s = .next { s with
      shiftChain := ofBits E, storage := ofBits E, commits := s.commits ++ [ofBits E]
      latch := true, clock := false, data := E.getLsbD 0 } := by
  rw [runOps_emitSeq_eq (runOps_bits (bitsOf E) (s := setPin .latch false s) h) rfl, afterBits, foldl_shiftIn_bitsOf,
    getLast?_bitsOf, ← h]
  rfl

/-! ### The display during the sequence -/

/-- A write of DATA or CLOCK, or of LATCH to 0: none of them reaches the storage register (41_serial_sequencer.md R122). -/
def LeavesDisplay (i : Instr) : Prop := i = .pinwLatch false ∨ (∃ v, i = .pinwData v) ∨ ∃ v, i = .pinwClock v

theorem LeavesDisplay.exec_keeps {i : Instr} (h : LeavesDisplay i) (s : State) :
    ∃ t, exec i s = .next t ∧ t.storage = s.storage ∧ t.commits = s.commits := by
  rcases h with rfl | ⟨v, rfl⟩ | ⟨v, rfl⟩
  · exact ⟨_, exec_pinwLatch_false s, rfl, rfl⟩
  · exact ⟨_, exec_pinwData v s, rfl, rfl⟩
  · refine ⟨pinWrite .clock v s, rfl, ?_⟩
    unfold pinWrite
    split <;> exact ⟨rfl, rfl⟩

theorem runOps_leavesDisplay {ops : List Instr} (h : ∀ i ∈ ops, LeavesDisplay i) (s : State) :
    ∃ t, runOps ops s = .next t ∧ t.storage = s.storage ∧ t.commits = s.commits := by
  induction ops generalizing s with
  | nil => exact ⟨s, rfl, rfl, rfl⟩
  | cons i ops ih =>
    obtain ⟨u, hu, hus, huc⟩ := (h i (List.mem_cons_self ..)).exec_keeps s
    obtain ⟨t, ht, hts, htc⟩ := ih (fun j hj => h j (List.mem_cons_of_mem _ hj)) u
    exact ⟨t, (runOps_cons hu ops).trans ht, hts.trans hus, htc.trans huc⟩

theorem shiftbit_leavesDisplay {b : Bit} {i : Instr} (h : i ∈ shiftbit b) : LeavesDisplay i := by
  simp only [shiftbit, List.mem_cons, List.not_mem_nil, or_false] at h
  rcases h with rfl | rfl | rfl
  · exact .inr (.inl ⟨_, rfl⟩)
  · exact .inr (.inr ⟨_, rfl⟩)
  · exact .inr (.inr ⟨_, rfl⟩)

/-- The first 49 writes of the sequence. -/
def emitSeqBeforeLatch (E : Bits16) : List Instr := .pinwLatch false :: (bitsOf E).flatMap shiftbit

theorem emitSeq_eq_append (E : Bits16) : emitSeq E = emitSeqBeforeLatch E ++ [.pinwLatch true] := emitSeq_eq E

theorem length_emitSeqBeforeLatch (E : Bits16) : (emitSeqBeforeLatch E).length = 49 := by
  rw [emitSeqBeforeLatch, List.length_cons, length_flatMap_shiftbit, length_bitsOf]

theorem emitSeqBeforeLatch_leavesDisplay {E : Bits16} {i : Instr} (h : i ∈ emitSeqBeforeLatch E) : LeavesDisplay i := by
  rcases List.mem_cons.mp h with rfl | h
  · exact .inl rfl
  · obtain ⟨b, -, hb⟩ := List.mem_flatMap.mp h
    exact shiftbit_leavesDisplay hb

theorem take_emitSeq_leavesDisplay {E : Bits16} {n : Nat} (hn : n < 50) {i : Instr} (h : i ∈ (emitSeq E).take n) :
    LeavesDisplay i := by
  rw [emitSeq_eq_append, List.take_append_of_le_length (by rw [length_emitSeqBeforeLatch]; omega)] at h
  exact emitSeqBeforeLatch_leavesDisplay (List.mem_of_mem_take h)

end Sys2Proof.Machine

section
open Sys2Proof Sys2Proof.Machine

/-- Settles O15: EMIT is the emit of its two operand bytes. -/
theorem emitTransfersWord : Obligations.EmitTransfersWord :=
  fun a b s => ⟨emitOp_of_clock_low a b s, emitOp_of_clock_high a b s⟩

/-- Settles O16: the new chain is the old one shifted by one cell. -/
theorem clockRisingEdgeShifts : Obligations.ClockRisingEdgeShifts :=
  fun s h => ⟨shiftIn s.shiftChain s.data, congrArg Host.Outcome.next (pinWrite_clock_rise s h),
    shiftIn_getElem_zero _ _, fun i hi => shiftIn_getElem_succ _ _ i hi⟩

/-- Settles O17: it is the rising edge of LATCH. -/
theorem latchRisingEdgeCommits : Obligations.LatchRisingEdgeCommits := fun _ h => exec_pinwLatch_rise h

/-- Settles O18: DATA has no edge of its own, and the other two wires make none here. -/
theorem wireWriteWithoutEdgeSetsWire : Obligations.WireWriteWithoutEdgeSetsWire :=
  fun v s => ⟨exec_pinwData v s, exec_pinwClock_of_no_edge,
    fun h => congrArg Host.Outcome.next (pinWrite_of_no_edge .latch v s h)⟩

/-- Settles O19: both levels end in one state, and of the 50 writes only the last reaches the display. -/
theorem emitSequenceAgreesWithEmit : Obligations.EmitSequenceAgreesWithEmit := by
  refine fun E s h => ⟨?length, ⟨_, runOps_emitSeq E h, exec_emit_word E h, rfl, rfl, rfl, rfl, rfl, rfl⟩, fun n hn => ?before⟩
  case length => rw [emitSeq_eq_append, List.length_append, length_emitSeqBeforeLatch]; rfl
  case before => exact runOps_leavesDisplay (fun i hi => take_emitSeq_leavesDisplay hn hi) s

/-- Settles O20: the first and the last write make no edge of CLOCK, and only the last makes one of LATCH. -/
theorem emitSequenceClocksSixteenBits : Obligations.EmitSequenceClocksSixteenBits := by
  intro E s h
  have hs : (setPin .latch false s).clock = false := h
  have hb := runOps_bits (bitsOf E) hs
  rw [emitSeq_eq, edgesOf_cons (exec_pinwLatch_false s), edgesOf_cons (exec_pinwLatch_false s),
    edgesOf_append hb, edgesOf_append hb, edgesOf_clock_bits (bitsOf E) hs, edgesOf_latch_bits (bitsOf E) hs]
  refine ⟨?clock, ?latch⟩
  case clock => rw [bitsOf_eq_map, List.map_map]; rfl
  case latch => rfl

/-- Settles O21: the first pulse makes no edge, so 15 bits follow the old lowest cell into the chain. -/
theorem emitSequenceFromClockHighShiftsFifteen : Obligations.EmitSequenceFromClockHighShiftsFifteen := by
  intro E s h
  have hfirst := runOps_shiftbit_clock_high (E.getLsbD 15) (s := setPin .latch false s) h
  have hbits : runOps ((bitsOf E).flatMap shiftbit) (setPin .latch false s) = .next (afterBits (lowBitsOf E)
      (setPin .clock false (setPin .data (E.getLsbD 15) (setPin .latch false s)))) := by
    rw [bitsOf_eq_cons, List.flatMap_cons, runOps_append _ _ _ _ hfirst, runOps_bits (lowBitsOf E) rfl]
  exact ⟨(lowBitsOf E).foldl shiftIn s.shiftChain, _, runOps_emitSeq_eq hbits rfl, rfl, rfl, rfl,
    foldl_shiftIn_lowBitsOf_top E _, foldl_shiftIn_lowBitsOf E _⟩

end

/-! RENDER (42_tdm_scheduler.md R151 to R160): what it reads, and what its word lights on the display (10_state.md R27, R28). -/

namespace Sys2Proof.Machine

/-! ### The digits of a frame -/

theorem timeDigits_recompose (n : Nat) :
    (10 * (n / 60 / 10) + n / 60 % 10) * 60 + (10 * (n % 60 / 10) + n % 60 % 10) = n := by omega

theorem voltDigits_recompose (m : Nat) :
    1000 * (m / 1000) + 100 * (m % 1000 / 100) + 10 * (m % 1000 % 100 / 10) + m % 1000 % 10 = m := by omega

/-! ### The state after a digit -/

/-- The state a render that consumes a refresh ends in, `stored` being its digit's stored pattern (42_tdm_scheduler.md R152). -/
def afterDigit (stored : Bits8) (s : State) : State :=
  { s with
    lphase := .atPoll
    pending := false
    shiftChain := ofBits (frameWord s.params s.mode s.idx stored)
    storage := ofBits (frameWord s.params s.mode s.idx stored)
    commits := s.commits ++ [ofBits (frameWord s.params s.mode s.idx stored)]
    latch := true
    clock := false
    data := s.params.selTable[s.idx].getLsbD 0
    idx := s.idx + 1 }

@[simp] theorem afterDigit_params (b : Bits8) (s : State) : (afterDigit b s).params = s.params := rfl
@[simp] theorem afterDigit_pending (b : Bits8) (s : State) : (afterDigit b s).pending = false := rfl
@[simp] theorem afterDigit_idx (b : Bits8) (s : State) : (afterDigit b s).idx = s.idx + 1 := rfl
@[simp] theorem afterDigit_mode (b : Bits8) (s : State) : (afterDigit b s).mode = s.mode := rfl
@[simp] theorem afterDigit_clock (b : Bits8) (s : State) : (afterDigit b s).clock = false := rfl
@[simp] theorem afterDigit_shiftChain (b : Bits8) (s : State) :
    (afterDigit b s).shiftChain = ofBits (frameWord s.params s.mode s.idx b) := rfl
@[simp] theorem afterDigit_storage (b : Bits8) (s : State) :
    (afterDigit b s).storage = ofBits (frameWord s.params s.mode s.idx b) := rfl
@[simp] theorem afterDigit_lphase (b : Bits8) (s : State) : (afterDigit b s).lphase = .atPoll := rfl
@[simp] theorem afterDigit_seconds (b : Bits8) (s : State) : (afterDigit b s).seconds = s.seconds := rfl
@[simp] theorem afterDigit_prevReset (b : Bits8) (s : State) : (afterDigit b s).prevReset = s.prevReset := rfl
@[simp] theorem afterDigit_commits (b : Bits8) (s : State) :
    (afterDigit b s).commits = s.commits ++ [ofBits (frameWord s.params s.mode s.idx b)] := rfl
@[simp] theorem afterDigit_faults (b : Bits8) (s : State) : (afterDigit b s).faults = s.faults := rfl
@[simp] theorem afterDigit_refused (b : Bits8) (s : State) : (afterDigit b s).refused = s.refused := rfl
@[simp] theorem afterDigit_returns (b : Bits8) (s : State) : (afterDigit b s).returns = s.returns := rfl
@[simp] theorem afterDigit_traceKind (b : Bits8) (s : State) : (afterDigit b s).traceKind = s.traceKind := rfl
@[simp] theorem afterDigit_trace (b : Bits8) (s : State) : (afterDigit b s).trace = s.trace := rfl

theorem exec_render_digit {mv : Bits16} {s : State} (hm : mv.toNat ≤ 9999) (hs : s.seconds ≤ 5999)
    (hp : s.pending = true) (hc : s.clock = false) :
    ∃ stored : Bits8, s.params.segTable[digitValue s.mode s.idx s.seconds mv.toNat]? = some stored ∧
      exec (.render mv) s = .next (afterDigit stored s) := by
  obtain ⟨stored, hst, he⟩ := execRender_consume mv s hm hs hp hc
  rw [nextIdx_eq] at he
  exact ⟨stored, hst, he⟩

/-- A render that answers a next state had its values in range, and CLOCK at 0 where it consumed a refresh. -/
theorem exec_render_next_cases {mv : Bits16} {s t : State} (h : exec (.render mv) s = .next t) :
    mv.toNat ≤ 9999 ∧ s.seconds ≤ 5999 ∧
    ((s.pending = false ∧ t = setPhase .atPoll s) ∨
     (s.pending = true ∧ s.clock = false ∧ ∃ stored : Bits8,
      s.params.segTable[digitValue s.mode s.idx s.seconds mv.toNat]? = some stored ∧ t = afterDigit stored s)) := by
  rw [exec] at h
  rcases execRender_cases mv s with ⟨_, he⟩ | ⟨_, _, he⟩ | ⟨hm, hs, hp, he⟩ | ⟨_, _, _, _, he⟩ | ⟨hm, hs, hp, hc, -⟩
  · exact absurd (he.symm.trans h) (raise_ne_next _ _ _)
  · exact absurd (he.symm.trans h) (raise_ne_next _ _ _)
  · cases he.symm.trans h
    exact ⟨hm, hs, .inl ⟨hp, rfl⟩⟩
  · exact absurd (he.symm.trans h) (raise_ne_next _ _ _)
  · obtain ⟨stored, hst, he⟩ := exec_render_digit hm hs hp hc
    cases he.symm.trans h
    exact ⟨hm, hs, .inr ⟨hp, hc, stored, hst, rfl⟩⟩

/-! ### The one source of a mode -/

theorem renderDigit_time {s : State} (h : s.mode = .time) (mv mv' : Bits16) : renderDigit mv s = renderDigit mv' s := by
  simp only [renderDigit, h, digitValue]

theorem sampleMv_toNat (x : Config.Sample) : (BitVec.ofNat 16 (sampleMv x)).toNat ≤ 9999 := by
  have h : sampleMv x ≤ 9999 := Nat.min_le_right _ _
  rwa [BitVec.toNat_ofNat, Nat.mod_eq_of_lt (by omega)]

/-! ### What the storage register lights -/

section
variable {t : State} {segments digitSelect : Bits8} (h : t.storage = ofBits (emitWord segments digitSelect))
include h

theorem digitCell_of_storage (p : Fin 4) : digitCell t p = .known (digitSelect.getLsbD t.params.digitLine[p].val) := by
  simp only [digitCell, h]
  rw [ofBits_getElem, emitWord_low _ _ _ (Fin.isLt _)]

theorem segmentCell_of_storage (b : Fin 8) : segmentCell t b = .known (segments.getLsbD b.val) := by
  simp only [segmentCell, h]
  rw [ofBits_getElem, emitWord_high]

end

/-- The selector of a position enables that position's line and no other (00_scope.md R7; 42_tdm_scheduler.md R154). -/
theorem selTable_line_iff {P : Params} (h : P.wf = true) (p q : Fin 4) :
    P.selTable[p].getLsbD P.digitLine[q].val = false ↔ q = p := by
  obtain ⟨hone, hdist, -⟩ := (wf_iff P).mp h
  obtain ⟨hinj, hmask⟩ := (distinctLines_iff P).mp hdist
  rw [(oneDigit_iff P).mp hone p _ (hmask q)]
  exact ⟨hinj q p, fun hqp => hqp ▸ rfl⟩

theorem filter_eq_singleton (p : Fin 4) : (List.finRange 4).filter (fun q => decide (q = p)) = [p] := by
  revert p; decide

theorem enabledDigits_of_storage {t : State} {segments : Bits8} {p : Fin 4} (hwf : t.params.wf = true)
    (h : t.storage = ofBits (emitWord segments t.params.selTable[p])) : enabledDigits t = [p] := by
  rw [← filter_eq_singleton p, enabledDigits]
  refine List.filter_congr fun q _ => ?_
  rw [digitCell_of_storage h, Bool.eq_iff_iff, beq_iff_eq, Cell.known.injEq, decide_eq_true_iff, selTable_line_iff hwf p q]

section
variable {t : State} {segments : Bits8} {p : Fin 4} (hwf : t.params.wf = true)
  (h : t.storage = ofBits (emitWord segments t.params.selTable[p]))
include hwf h

theorem digitCell_of_selected : digitCell t p = .known false := by
  rw [digitCell_of_storage h, (selTable_line_iff hwf p p).mpr rfl]

theorem segLit_of_selected (x : Segment) : segLit t p x = .known (!segments.getLsbD (t.params.segBit.get x).val) := by
  rw [segLit, digitCell_of_selected hwf h, segmentCell_of_storage h]
  rfl

theorem indLit_of_selected : indLit t p = .known (!segments.getLsbD t.params.indBit.val) := by
  rw [indLit, digitCell_of_selected hwf h, segmentCell_of_storage h]
  rfl

end

/-- The indicator's lane apart, the shown pattern is the stored one (42_tdm_scheduler.md R155). -/
theorem shownPattern_of_ne {P : Params} {b : Fin 8} (hb : b ≠ P.indBit) (mode : DisplayMode) (p : Fin 4) (stored : Bits8) :
    (shownPattern P mode p stored).getLsbD b.val = stored.getLsbD b.val := by
  unfold shownPattern
  split
  · rw [withInd_getLsbD, decide_eq_true hb, Bool.and_true]
  · rfl

theorem shownPattern_indBit (P : Params) (mode : DisplayMode) (p : Fin 4) (stored : Bits8) :
    (shownPattern P mode p stored).getLsbD P.indBit.val = (!indAt mode p && stored.getLsbD P.indBit.val) := by
  unfold shownPattern
  cases indAt mode p
  · rfl
  · exact withInd_indBit P stored

end Sys2Proof.Machine

section
open Sys2Proof Sys2Proof.Machine

/-- Settles O24, from the tables of the two modes. -/
theorem frameDigitsRecomposeValue : Obligations.FrameDigitsRecomposeValue := by
  refine fun seconds mv _ _ => ⟨timeDigits_recompose seconds, ?_, voltDigits_recompose mv⟩
  change seconds % 60 / 10 ≤ 5
  omega

/-- Settles O26: it is the consuming case of a render, whose word is the frame word of its position. -/
theorem renderConsumesRefresh : Obligations.RenderConsumesRefresh :=
  fun _ _ hm hs hp hc => exec_render_digit hm hs hp hc

/-- Settles O28: the three cases of a render that raise a fault. -/
theorem renderFaultsInOrder : Obligations.RenderFaultsInOrder :=
  fun mv s => ⟨execRender_mvRange mv s, execRender_secondsRange mv s, execRender_clockHigh mv s⟩

/-- Settles O29: each mode's digit reads one source, and the checks on the other do not tell the two renders apart. -/
theorem renderReadsOnlyItsModeSource : Obligations.RenderReadsOnlyItsModeSource := by
  refine ⟨fun s mv mv' hmode hm hm' => ?time, fun s t mv n hmode hn h => ?volt⟩
  case time =>
    simp only [exec]
    rcases Nat.lt_or_ge 5999 s.seconds with hs | hs
    · rw [execRender_secondsRange mv s hm hs, execRender_secondsRange mv' s hm' hs]
    cases hp : s.pending
    · rw [execRender_idle mv s hm hs hp, execRender_idle mv' s hm' hs hp]
    · rw [execRender_pending mv s hm hs hp, execRender_pending mv' s hm' hs hp]
      exact renderDigit_time (s := clearPending (setPhase .atPoll s)) hmode mv mv'
  case volt =>
    obtain ⟨hm, -, ⟨hp, rfl⟩ | ⟨hp, hc, stored, hst, rfl⟩⟩ := exec_render_next_cases h
    · exact execRender_idle mv (setSeconds n s) hm hn hp
    · obtain ⟨stored', hst', he⟩ := exec_render_digit (s := setSeconds n s) hm hn hp hc
      simp only [setSeconds_params, setSeconds_mode, setSeconds_idx, hmode, digitValue] at hst hst'
      obtain rfl : stored = stored' := Option.some.inj (hst.symm.trans hst')
      exact he

/-- Settles O33: the word's selector enables the position's line alone, and the segments are the shown pattern's lanes. -/
theorem consumingRenderLightsItsDigit : Obligations.ConsumingRenderLightsItsDigit := by
  intro mv s hwf hm hs hp hc
  obtain ⟨stored, hst, he⟩ := exec_render_digit hm hs hp hc
  obtain ⟨-, -, hfree⟩ := (wf_iff s.params).mp hwf
  have hwf' : (afterDigit stored s).params.wf = true := hwf
  have ht : (afterDigit stored s).storage = ofBits (emitWord (shownPattern s.params s.mode s.idx stored)
      (afterDigit stored s).params.selTable[s.idx]) := rfl
  refine ⟨stored, afterDigit stored s, hst, he, enabledDigits_of_storage hwf' ht, fun x => ?_, ?_⟩
  · rw [segLit_of_selected hwf' ht, afterDigit_params, shownPattern_of_ne ((indFree_iff _).mp hfree x)]
  · rw [indLit_of_selected hwf' ht, afterDigit_params, shownPattern_indBit, Bool.not_and, Bool.not_not]

/-- Settles O39: the clamp keeps the sample in range, so neither a range fault nor a clock fault is raised. -/
theorem clampedSampleRenders : Obligations.ClampedSampleRenders := by
  intro x s hs hc
  have hm := sampleMv_toNat x
  cases hp : s.pending
  · exact ⟨_, execRender_idle _ s hm hs hp⟩
  · obtain ⟨stored, -, he⟩ := exec_render_digit hm hs hp hc
    exact ⟨_, he⟩

end

/-! Which operation writes which element (10_state.md R34), what a fault leaves (60_exceptions.md R201 to R204), and that the interrupts commute with each other and with every
serial operation (60_exceptions.md R208, R210). -/

namespace Sys2Proof.Machine

/-! ### The next state of a unit operation -/

theorem pinWrite_cases (n : Pin) (v : Bit) (s : State) :
    pinWrite n v s = setPin n v s ∨ (v = true ∧ pinWrite n v s = risingEdge n (setPin n v s)) := by
  unfold pinWrite
  split
  · exact .inr ⟨by tauto, rfl⟩
  · exact .inl rfl

theorem exec_segrd_next {d : BitVec 4} {s t : State} (h : exec (.segrd d) s = .next t) :
    ∃ hd : d.toNat < 10, t = returnByte s.params.segTable[d.toNat] s := by
  rcases Nat.lt_or_ge d.toNat 10 with hd | hd
  · cases (execSegrd_mapped d s hd).symm.trans h
    exact ⟨hd, rfl⟩
  · cases (execSegrd_unmapped d s hd).symm.trans h

theorem exec_emit_next {a b : Bits8} {s t : State} (h : exec (.emit a b) s = .next t) :
    s.clock = false ∧ t = { s with
      shiftChain := ofBits (emitWord a b), storage := ofBits (emitWord a b)
      commits := s.commits ++ [ofBits (emitWord a b)]
      latch := true, clock := false, data := b.getLsbD 0 } := by
  cases hc : s.clock
  · cases (emitOp_of_clock_low a b s hc).symm.trans h
    exact ⟨rfl, rfl⟩
  · cases (emitOp_of_clock_high a b s hc).symm.trans h

end Sys2Proof.Machine

section
open Sys2Proof Sys2Proof.Machine

/-- Settles O47, operation by operation: each next state differs from `s` in the elements its operation writes. -/
theorem writersOfEachElement : Obligations.WritersOfEachElement := by
  intro i s t h
  cases i with
  | segrd d =>
    obtain ⟨_, rfl⟩ := exec_segrd_next h
    simp
  | selrd p =>
    cases h
    simp
  | emit a b =>
    obtain ⟨hc, rfl⟩ := exec_emit_next h
    simp [hc]
  | pinwLatch v =>
    cases h
    rcases pinWrite_cases .latch v s with h | ⟨rfl, h⟩ <;> rw [h] <;> simp [risingEdge]
  | pinwClock v =>
    cases h
    rcases pinWrite_cases .clock v s with h | ⟨rfl, h⟩ <;> rw [h] <;> simp [risingEdge]
  | pinwData v =>
    cases h
    rw [pinWrite_data]
    simp
  | refresh =>
    cases h
    simp
  | render mv =>
    obtain ⟨-, -, ⟨-, rfl⟩ | ⟨-, hc, stored, -, rfl⟩⟩ := exec_render_next_cases h
    · simp
    · simp [hc]
  | sectick =>
    cases h
    simp
  | poll r m =>
    cases (exec_poll r m s).symm.trans h
    simp

end

namespace Sys2Proof.Machine

/-! ### The faults of an operation -/

/-- Every fault an operation can end in, and what it leaves (60_exceptions.md R201 to R204). -/
theorem exec_fault_cases {i : Instr} {s : State} {f : Fault} (h : exec i s = .fault f) :
    (∃ d, i = .segrd d ∧ f = .segAddrRange d (recordFault (.segAddrRange d) s)) ∨
    (∃ a b, i = .emit a b ∧ f = .clockNotIdle true (recordFault (.clockNotIdle true) s)) ∨
    (∃ mv, i = .render mv ∧ 9999 < mv.toNat ∧ f = .mvRange mv (recordFault (.mvRange mv) s)) ∨
    (∃ mv, i = .render mv ∧ 5999 < s.seconds ∧ f = .secondsRange s.seconds (recordFault (.secondsRange s.seconds) s)) ∨
    (∃ mv, i = .render mv ∧ s.clock = true ∧
      f = .clockNotIdle true (recordFault (.clockNotIdle true) (clearPending (setPhase .atPoll s)))) := by
  cases i with
  | segrd d =>
    rcases Nat.lt_or_ge d.toNat 10 with hd | hd
    · cases (execSegrd_mapped d s hd).symm.trans h
    · cases (execSegrd_unmapped d s hd).symm.trans h
      exact .inl ⟨d, rfl, rfl⟩
  | emit a b =>
    cases hc : s.clock
    · cases (emitOp_of_clock_low a b s hc).symm.trans h
    · cases (emitOp_of_clock_high a b s hc).symm.trans h
      exact .inr (.inl ⟨a, b, rfl, rfl⟩)
  | render mv =>
    rcases execRender_cases mv s with ⟨hm, he⟩ | ⟨-, hs, he⟩ | ⟨-, -, -, he⟩ | ⟨-, -, -, hc, he⟩ | ⟨-, -, -, -, _, -, he⟩ <;>
      cases he.symm.trans h
    · exact .inr (.inr (.inl ⟨mv, rfl, hm, rfl⟩))
    · exact .inr (.inr (.inr (.inl ⟨mv, rfl, hs, rfl⟩)))
    · exact .inr (.inr (.inr (.inr ⟨mv, rfl, hc, rfl⟩)))
  | selrd _ | pinwLatch _ | pinwClock _ | pinwData _ | refresh | sectick | poll _ _ => cases h

/-- A fault keeps the trace, its kind and `seconds`. -/
theorem exec_fault_frame {i : Instr} {s : State} {f : Fault} (h : exec i s = .fault f) :
    f.after.trace = s.trace ∧ f.after.traceKind = s.traceKind ∧ f.after.seconds = s.seconds := by
  rcases exec_fault_cases h with ⟨_, -, rfl⟩ | ⟨_, _, -, rfl⟩ | ⟨_, -, -, rfl⟩ | ⟨_, -, -, rfl⟩ | ⟨_, -, -, rfl⟩ <;>
    exact ⟨rfl, rfl, rfl⟩

/-- An operation neither takes from the trace nor changes its kind, whatever it ends in (log 1, 3). -/
theorem outcomeState_exec_trace (i : Instr) (s : State) :
    (outcomeState (exec i s) s).trace = s.trace ∧ (outcomeState (exec i s) s).traceKind = s.traceKind := by
  cases h : exec i s with
  | next t =>
    obtain ⟨-, -, -, hk, ht, -⟩ := writersOfEachElement i s t h
    exact ⟨ht, hk⟩
  | fault f =>
    obtain ⟨ht, hk, -⟩ := exec_fault_frame h
    exact ⟨ht, hk⟩
  | refused r => exact absurd h (exec_ne_refused i s r)

/-! ### The two elements an interrupt writes -/

/-- `pending` and `seconds`, the elements of the interrupts, set together (60_exceptions.md R208). -/
def setIrq (p : Bool) (n : Nat) (s : State) : State := { s with pending := p, seconds := n }

/-- What an interrupt writes depends on the elements of the interrupts alone (60_exceptions.md R210). -/
theorem exec_irq {irq : Instr} (h : irq = .refresh ∨ irq = .sectick) (s : State) :
    ∃ p n, ∀ u, u.pending = s.pending → u.seconds = s.seconds → exec irq u = .next (setIrq p n u) := by
  rcases h with rfl | rfl
  · exact ⟨true, s.seconds, fun u _ hs => by rw [← hs]; rfl⟩
  · exact ⟨s.pending, tickSeconds s.seconds, fun u hp hs => by rw [← hp, ← hs]; rfl⟩

theorem pinWrite_setIrq (pin : Pin) (v : Bit) (p : Bool) (n : Nat) (s : State) :
    pinWrite pin v (setIrq p n s) = setIrq p n (pinWrite pin v s) := by
  have hl : pinLevel pin (setIrq p n s) = pinLevel pin s := by cases pin <;> rfl
  rw [pinWrite, pinWrite, hl]
  split <;> cases pin <;> rfl

/-- A unit operation that completes does not read the elements of the interrupts (41_serial_sequencer.md R125). -/
theorem exec_unit_setIrq {i : Instr} {s t : State} (hi : i.traceKind = .unit) (h : exec i s = .next t) (p : Bool) (n : Nat) :
    exec i (setIrq p n s) = .next (setIrq p n t) := by
  cases i with
  | segrd d =>
    obtain ⟨hd, rfl⟩ := exec_segrd_next h
    exact execSegrd_mapped d (setIrq p n s) hd
  | selrd q => cases h; rfl
  | emit a b =>
    obtain ⟨hc, rfl⟩ := exec_emit_next h
    exact emitOp_of_clock_low a b (setIrq p n s) hc
  | pinwLatch v => cases h; exact congrArg Host.Outcome.next (pinWrite_setIrq .latch v p n s)
  | pinwClock v => cases h; exact congrArg Host.Outcome.next (pinWrite_setIrq .clock v p n s)
  | pinwData v => cases h; exact congrArg Host.Outcome.next (pinWrite_setIrq .data v p n s)
  | refresh | render _ | sectick | poll _ _ => cases hi

/-- Nor does it write them (10_state.md R34). -/
theorem exec_unit_keeps_irq {i : Instr} {s t : State} (hi : i.traceKind = .unit) (h : exec i s = .next t) :
    t.pending = s.pending ∧ t.seconds = s.seconds := by
  obtain ⟨-, -, -, -, -, hp, -, -, -, hs, -⟩ := writersOfEachElement i s t h
  refine ⟨by_contra fun hne => ?_, by_contra fun hne => ?_⟩
  · rcases hp hne with rfl | ⟨mv, rfl⟩ <;> cases hi
  · rcases hs hne with rfl | ⟨r, m, rfl⟩ <;> cases hi

end Sys2Proof.Machine

section
open Sys2Proof Sys2Proof.Machine

/-- Settles O49: the interrupts write different elements, and a unit operation neither reads nor writes either. -/
theorem interruptsCommute : Obligations.InterruptsCommute := by
  refine ⟨fun s => rfl, fun i irq s t hi hirq h => ?_⟩
  obtain ⟨p, n, hn⟩ := exec_irq hirq s
  obtain ⟨hp, hs⟩ := exec_unit_keeps_irq hi h
  rw [runOps_cons (hn s rfl rfl), runOps_cons (exec_unit_setIrq hi h p n), runOps_cons h, runOps_cons (hn t hp hs)]

end

/-! What every step keeps (70_reset_and_hazards.md section 3): the system invariant, the range of `seconds` (43_environment.md
R184), and the only fault a system trace can end in (60_exceptions.md R200). -/

namespace Sys2Proof.Machine

/-! ### From the operations to the step -/

/-- A step keeps what setting the mark of a refusal, moving the trace, and every operation of the trace's kind keep. -/
theorem advance_keeps {p : State → Prop} (hmark : ∀ s, p s → p (markRefused s))
    (htrace : ∀ rest s, p s → p (setTrace rest s))
    (hexec : ∀ i s, i.traceKind = s.traceKind → p s → p (outcomeState (exec i s) s)) (s : State) (h : p s) :
    p (advance s) := by
  unfold advance
  rcases step_cases s with ⟨c, -, hs⟩ | ⟨-, -, hs⟩ | ⟨-, item, rest, -, hs⟩ <;> rw [hs]
  · exact hmark s h
  · exact h
  have hr := htrace rest s h
  rcases stepItem_cases item (setTrace rest s) with ⟨-, hi⟩ | ⟨i, -, ⟨-, hi⟩ | ⟨-, -, hi⟩ | ⟨ha, -, hi⟩⟩ <;> rw [hi]
  · exact hmark _ hr
  · exact hmark _ hr
  · exact hmark _ hr
  · rw [outcomeState_exec_congr i _ s (setTrace rest s)]
    exact hexec i _ ((admittedIn_iff _ _ _).mp ha).2.symm hr

theorem advance_of_step_next {s t : State} (h : step s = .next t) : advance s = t := by
  rw [advance, h]
  rfl

/-! ### The system invariant -/

/-- The position a system state stands at is that of its next commit. -/
theorem SystemInv.idx_eq {s : State} (h : SystemInv s) : s.idx = Fin.ofNat 4 s.commits.length :=
  Fin.ext h.idxCountsCommits

/-- The words committed so far keep their positions, and the new one shows the next. -/
theorem positionsInTurn_append {P : Params} {ws : List Cells16} {w : Cells16}
    (h : ∀ (j : Nat) (v : Cells16), ws[j]? = some v → ShowsPosition P (Fin.ofNat 4 j) v)
    (hw : ShowsPosition P (Fin.ofNat 4 ws.length) w) (j : Nat) (v : Cells16) (hv : (ws ++ [w])[j]? = some v) :
    ShowsPosition P (Fin.ofNat 4 j) v := by
  rcases Nat.lt_trichotomy j ws.length with hj | rfl | hj
  · exact h j v (by rwa [List.getElem?_append_left hj] at hv)
  · obtain rfl : w = v := by simpa using hv
    exact hw
  · rw [List.getElem?_eq_none (by simpa using hj)] at hv
    cases hv

theorem SystemInv.afterDigit {s : State} (h : SystemInv s) (stored : Bits8) : SystemInv (afterDigit stored s) where
  systemTrace := h.systemTrace
  paramsWf := h.paramsWf
  clockLow := rfl
  secondsInRange := h.secondsInRange
  shiftIsStorage := rfl
  storageIsLast := by simp
  positionsInTurn := positionsInTurn_append h.positionsInTurn (h.idx_eq ▸ ⟨_, rfl⟩)
  idxCountsCommits := by
    rw [afterDigit_idx, afterDigit_commits, List.length_append, Fin.val_add, h.idxCountsCommits]
    exact Nat.mod_add_mod _ 4 1
  faultsListed := h.faultsListed

/-- An operation of a system trace: the count stays in range, and only a render commits or raises a fault. -/
theorem SystemInv.exec {i : Instr} {s : State} (hi : i.traceKind = .system) (h : SystemInv s) :
    SystemInv (outcomeState (exec i s) s) := by
  cases i with
  | refresh => exact { h with }
  | sectick => exact { h with secondsInRange := tickSeconds_le _ h.secondsInRange }
  | poll r m =>
    rw [exec_poll]
    have hs : (if s.prevReset = true ∧ r = false then 0 else s.seconds) ≤ 5999 := by
      split
      · exact Nat.zero_le _
      · exact h.secondsInRange
    exact { h with secondsInRange := hs }
  | render mv =>
    rcases execRender_cases mv s with ⟨-, he⟩ | ⟨-, hs, -⟩ | ⟨-, -, -, he⟩ | ⟨-, -, -, hc, -⟩ | ⟨hm, hs, hp, hc, -⟩
    · rw [Machine.exec, he, outcomeState_raise]
      exact { h with faultsListed := faultsWf_insertFault _ _ h.faultsListed }
    · exact absurd h.secondsInRange (Nat.not_le.mpr hs)
    · rw [Machine.exec, he]
      exact { h with }
    · exact absurd (hc.symm.trans h.clockLow) (by decide)
    · obtain ⟨stored, -, he⟩ := exec_render_digit hm hs hp hc
      rw [he]
      exact h.afterDigit stored
  | segrd _ | selrd _ | emit _ _ | pinwLatch _ | pinwClock _ | pinwData _ => cases hi

theorem SystemInv.advance {s : State} (h : SystemInv s) : SystemInv (advance s) :=
  advance_keeps (fun _ h => { h with }) (fun _ _ h => { h with })
    (fun _ _ hi h => h.exec (hi.trans h.systemTrace)) s h

theorem systemInv_reset {P : Params} (items : List TraceItem) (h : P.wf = true) :
    SystemInv (loadTrace .system items (State.resetWith P)) where
  systemTrace := rfl
  paramsWf := h
  clockLow := rfl
  secondsInRange := Nat.zero_le _
  shiftIsStorage := rfl
  storageIsLast := rfl
  positionsInTurn := fun _ _ hv => by cases hv
  idxCountsCommits := rfl
  faultsListed := rfl

/-! ### The faults of a system trace -/

/-- With the count in range and CLOCK at 0 an operation of a system trace can only raise `MvRange` (60_exceptions.md R200). -/
theorem exec_system_fault {i : Instr} {s : State} {f : Fault} (hi : i.traceKind = .system) (hs : s.seconds ≤ 5999)
    (hc : s.clock = false) (h : exec i s = .fault f) :
    ∃ mv : Bits16, 9999 < mv.toNat ∧ f = .mvRange mv (recordFault (.mvRange mv) s) := by
  rcases exec_fault_cases h with ⟨_, rfl, -⟩ | ⟨_, _, rfl, -⟩ | ⟨mv, -, hm, rfl⟩ | ⟨_, -, hs', -⟩ | ⟨_, -, hc', -⟩
  · cases hi
  · cases hi
  · exact ⟨mv, hm, rfl⟩
  · exact absurd hs (Nat.not_le.mpr hs')
  · exact absurd (hc'.symm.trans hc) (by decide)

/-- A fault of a step is the fault of the operation it runs (60_exceptions.md R206). -/
theorem step_fault_cases {s : State} {f : Fault} (h : step s = .fault f) :
    ∃ i rest, i.traceKind = s.traceKind ∧ exec i (setTrace rest s) = .fault f := by
  rcases step_cases s with ⟨c, -, hs⟩ | ⟨-, -, hs⟩ | ⟨-, item, rest, -, hs⟩
  · cases hs.symm.trans h
  · cases hs.symm.trans h
  rcases stepItem_cases item (setTrace rest s) with ⟨-, hi⟩ | ⟨i, -, ⟨-, hi⟩ | ⟨-, -, hi⟩ | ⟨ha, -, hi⟩⟩
  · cases (hs.trans hi).symm.trans h
  · cases (hs.trans hi).symm.trans h
  · cases (hs.trans hi).symm.trans h
  · exact ⟨i, rest, ((admittedIn_iff _ _ _).mp ha).2.symm, (hs.trans hi).symm.trans h⟩

/-! ### The range of `seconds` -/

/-- A tick is the next value, a poll clears the count or keeps it, and no other operation writes it (43_environment.md R184). -/
theorem exec_next_seconds {i : Instr} {s t : State} (h : exec i s = .next t) :
    t.seconds = s.seconds ∨ t.seconds = tickSeconds s.seconds ∨ t.seconds = 0 := by
  obtain ⟨-, -, -, -, -, -, -, -, -, hw, -⟩ := writersOfEachElement i s t h
  by_cases heq : t.seconds = s.seconds
  · exact .inl heq
  rcases hw heq with rfl | ⟨r, m, rfl⟩
  · cases h
    exact .inr (.inl rfl)
  · cases (exec_poll r m s).symm.trans h
    exact .inr (.inr (ite_eq_left_iff.mpr fun hr => absurd (if_neg hr) heq))

theorem outcomeState_exec_seconds_le (i : Instr) {s : State} (h : s.seconds ≤ 5999) :
    (outcomeState (exec i s) s).seconds ≤ 5999 := by
  cases he : exec i s with
  | next t =>
    rw [outcomeState_next]
    rcases exec_next_seconds he with hs | hs | hs <;> rw [hs]
    · exact h
    · exact tickSeconds_le _ h
    · exact Nat.zero_le _
  | fault f =>
    obtain ⟨-, -, hs⟩ := exec_fault_frame he
    exact hs.trans_le h
  | refused r => exact absurd he (exec_ne_refused i s r)

/-- `SecondsRange` is raised of a count above the range (60_exceptions.md R204). -/
theorem exec_secondsRange {i : Instr} {s t : State} {n : Nat} (h : exec i s = .fault (.secondsRange n t)) :
    5999 < s.seconds := by
  rcases exec_fault_cases h with ⟨_, -, hf⟩ | ⟨_, _, -, hf⟩ | ⟨_, -, -, hf⟩ | ⟨_, -, hs, -⟩ | ⟨_, -, -, hf⟩
  · cases hf
  · cases hf
  · cases hf
  · exact hs
  · cases hf

theorem exists_tickSeconds_eq {n : Nat} (h : n ≤ 5999) : ∃ k, k ≤ 5999 ∧ tickSeconds k = n := by
  cases n with
  | zero => exact ⟨5999, le_refl _, rfl⟩
  | succ n => exact ⟨n, by omega, by rw [tickSeconds_eq, if_neg (by omega)]⟩

end Sys2Proof.Machine

section
open Sys2Proof Sys2Proof.Machine

/-- Settles O42: every operation of a system trace keeps the invariant, and so do a refusal's mark and the trace's move. -/
theorem systemInvariantKept : Obligations.SystemInvariantKept :=
  fun _ h => ⟨fun _ ht => advance_of_step_next ht ▸ h.advance, h.advance⟩

/-- Settles O43: nothing is committed at reset. -/
theorem systemInvariantAtReset : Obligations.SystemInvariantAtReset :=
  ⟨fun _ items h => systemInv_reset items h, systemInv_reset (P := Params.default) [] (by decide)⟩

/-- Settles O44: the storage register holds the last committed word, whose selector is one position's. -/
theorem oneDigitEnabledAfterFirstCommit : Obligations.OneDigitEnabledAfterFirstCommit := by
  intro s h hne
  have hlast : s.commits[s.commits.length - 1]? = some (s.commits.getLast hne) := by
    rw [← List.getLast?_eq_getElem?, List.getLast?_eq_some_getLast hne]
  obtain ⟨pat, hpat⟩ := h.positionsInTurn _ _ hlast
  have hst : s.storage = s.commits.getLast hne := by
    rw [h.storageIsLast, List.getLast?_eq_some_getLast hne, Option.getD_some]
  exact ⟨_, enabledDigits_of_storage h.paramsWf (hst.trans hpat)⟩

/-- Settles O45: the invariant rules out the faults of the count and of CLOCK, and `MvRange` comes before any write. -/
theorem systemTraceFaultsOnlyOnMvRange : Obligations.SystemTraceFaultsOnlyOnMvRange := by
  intro s f h hf
  obtain ⟨i, rest, hi, he⟩ := step_fault_cases hf
  obtain ⟨mv, hm, rfl⟩ := exec_system_fault (s := setTrace rest s) (hi.trans h.systemTrace) h.secondsInRange h.clockLow he
  exact ⟨mv, _, rfl, hm, rfl, rfl⟩

/-- Settles O46: an operation keeps the count, ticks it, or clears it. -/
theorem secondsStayInRange : Obligations.SecondsStayInRange := by
  refine ⟨Nat.zero_le _, fun s h => ?_, fun s t n h hf => ?_, fun n hn => exists_tickSeconds_eq hn⟩
  · exact advance_keeps (p := fun t => t.seconds ≤ 5999) (fun _ h => h) (fun _ _ h => h)
      (fun i _ _ h => outcomeState_exec_seconds_le i h) s h
  · obtain ⟨i, rest, -, he⟩ := step_fault_cases hf
    exact absurd h (Nat.not_le.mpr (exec_secondsRange (s := setTrace rest s) he))

/-- Settles O41: boot writes the elements of its steps (1), (3) and (5), and a reset writes all. -/
theorem bootSetsNamedElementsAndResetReachesR230 : Obligations.BootSetsNamedElementsAndResetReachesR230 :=
  fun _ => ⟨rfl, rfl⟩

end

/-! Display frames (42_tdm_scheduler.md R157): the words a stretch of a system trace commits, whatever its interleaving, and the
frame issued digit by digit. -/

namespace Sys2Proof.Machine

/-! ### The words of a frame -/

/-- The stored pattern of the digit position `p` shows. -/
def storedDigit (P : Params) (mode : DisplayMode) (seconds mv : Nat) (p : Fin 4) : Bits8 :=
  P.segTable[digitValue mode p seconds mv]?.getD 0

theorem segTable_storedDigit (P : Params) (mode : DisplayMode) {seconds mv : Nat} (hs : seconds ≤ 5999) (hm : mv ≤ 9999)
    (p : Fin 4) : P.segTable[digitValue mode p seconds mv]? = some (storedDigit P mode seconds mv p) := by
  have hd := digitValue_le_nine mode p seconds mv hs hm
  rw [storedDigit, Vector.getElem?_eq_getElem (by omega), Option.getD_some]

/-- `E_p`, the word of position `p` in a frame of these values (42_tdm_scheduler.md R157). -/
def displayWord (P : Params) (mode : DisplayMode) (seconds mv : Nat) (p : Fin 4) : Bits16 :=
  frameWord P mode p (storedDigit P mode seconds mv p)

theorem displayWord_shows (P : Params) (mode : DisplayMode) {seconds mv : Nat} (hs : seconds ≤ 5999) (hm : mv ≤ 9999)
    (p : Fin 4) : ∃ stored : Bits8, P.segTable[digitValue mode p seconds mv]? = some stored ∧
      displayWord P mode seconds mv p = emitWord (if indAt mode p then withInd P stored else stored) P.selTable[p] :=
  ⟨_, segTable_storedDigit P mode hs hm p, rfl⟩

/-- A render that consumes a refresh commits the word of its position. -/
theorem exec_render_displayWord {mv : Bits16} {s : State} (hm : mv.toNat ≤ 9999) (hs : s.seconds ≤ 5999)
    (hp : s.pending = true) (hc : s.clock = false) :
    exec (.render mv) s = .next (afterDigit (storedDigit s.params s.mode s.seconds mv.toNat s.idx) s) := by
  obtain ⟨stored, hst, he⟩ := exec_render_digit hm hs hp hc
  cases hst.symm.trans (segTable_storedDigit s.params s.mode hs hm s.idx)
  exact he

/-- `k` positions in turn from `p` on. -/
def positionsFrom (p : Fin 4) (k : Nat) : List (Fin 4) :=
  match k with
  | 0 => []
  | k + 1 => p :: positionsFrom (p + 1) k

@[simp] theorem length_positionsFrom (p : Fin 4) (k : Nat) : (positionsFrom p k).length = k := by
  induction k generalizing p with
  | zero => rfl
  | succ k ih => rw [positionsFrom, List.length_cons, ih]

theorem positionsFrom_zero_four : positionsFrom 0 4 = [0, 1, 2, 3] := rfl

/-! ### The words of any stretch of a system trace -/

/-- A step that answers a next state ran the word at the head of the trace, enabled as R81 and R82 ask. -/
theorem step_next_enabled {s t : State} {item : TraceItem} {rest : List TraceItem} (ht : s.trace = item :: rest)
    (h : step s = .next t) : ∃ i, decode item.word = .ok i ∧ (∀ l, i.phase = some l → s.lphase = l) ∧
      exec i (setTrace rest s) = .next t := by
  rcases step_cases s with ⟨c, -, hs⟩ | ⟨-, hnil, -⟩ | ⟨-, item', rest', ht', hs⟩
  · exact absurd (hs.symm.trans h) (refuse_ne_next _ _ _)
  · cases hnil.symm.trans ht
  cases ht'.symm.trans ht
  rcases stepItem_cases item (setTrace rest s) with ⟨-, hi⟩ | ⟨i, hd, ⟨-, hi⟩ | ⟨-, -, hi⟩ | ⟨-, hp, hi⟩⟩
  · exact absurd ((hs.trans hi).symm.trans h) (refuse_ne_next _ _ _)
  · exact absurd ((hs.trans hi).symm.trans h) (refuse_ne_next _ _ _)
  · exact absurd ((hs.trans hi).symm.trans h) (refuse_ne_next _ _ _)
  · exact ⟨i, hd, (inPhase_iff _ _).mp hp, (hs.trans hi).symm.trans h⟩

/-- A step takes at most the first entry off the trace. -/
theorem advance_trace (s : State) : (advance s).trace = s.trace ∨ ∃ item, s.trace = item :: (advance s).trace := by
  unfold advance
  rcases step_cases s with ⟨c, -, hs⟩ | ⟨-, -, hs⟩ | ⟨-, item, rest, ht, hs⟩ <;> rw [hs]
  · exact .inl rfl
  · exact .inl rfl
  refine .inr ⟨item, ?_⟩
  rw [ht]
  rcases stepItem_cases item (setTrace rest s) with ⟨-, hi⟩ | ⟨i, -, ⟨-, hi⟩ | ⟨-, -, hi⟩ | ⟨-, -, hi⟩⟩ <;> rw [hi]
  · rfl
  · rfl
  · rfl
  · rw [outcomeState_exec_congr i _ s (setTrace rest s), (outcomeState_exec_trace i _).1]
    rfl

/-- A step of a system trace that consumes a refresh was taken at AtRender and commits the word of its position. -/
theorem step_consuming_commits {s t : State} {mv : Bits16} {rest : List TraceItem}
    (ht : s.trace = ⟨.mainLoop, encode (.render mv)⟩ :: rest) (h : step s = .next t) (hc : ConsumesRefresh s t) :
    s.lphase = .atRender ∧
      t.commits = s.commits ++ [ofBits (displayWord s.params s.mode s.seconds mv.toNat s.idx)] := by
  obtain ⟨i, hd, hp, he⟩ := step_next_enabled ht h
  cases (decode_encode (.render mv)).symm.trans hd
  obtain ⟨hpend, -⟩ := hc
  obtain ⟨hm, hs, ⟨hp', -⟩ | ⟨-, hclock, -⟩⟩ := exec_render_next_cases he
  · exact absurd (hp'.symm.trans hpend) (by decide)
  · cases (exec_render_displayWord (s := setTrace rest s) hm hs hpend hclock).symm.trans he
    exact ⟨hp _ rfl, rfl⟩

/-- A stretch of `n` steps of a system trace whose renders all meet the same values. -/
structure SteadyRenders (mode : DisplayMode) (seconds : Nat) (mv : Bits16) (n : Nat) (s : State) : Prop where
  systemTrace : s.traceKind = .system
  values : ∀ k, k < n → (advanceN k s).lphase = .atRender → (advanceN k s).mode = mode ∧ (advanceN k s).seconds = seconds
  samples : ∀ item ∈ s.trace.take n, ∀ mv', decode item.word = .ok (.render mv') → mv' = mv

namespace SteadyRenders

variable {mode : DisplayMode} {seconds n : Nat} {mv : Bits16} {s : State}

/-- What the first step of the stretch does: it commits the word of its position and moves on, or neither. -/
theorem advance_cases (h : SteadyRenders mode seconds mv (n + 1) s) :
    SamePosition s (advance s) ∨ ((advance s).traceKind = s.traceKind ∧ (advance s).idx = s.idx + 1 ∧
      (advance s).commits = s.commits ++ [ofBits (displayWord s.params mode seconds mv.toNat s.idx)]) := by
  rcases step_system_cases h.systemTrace with ⟨t, ht, hs, -⟩ | ⟨-, hs⟩ | ⟨mv', rest, t, htr, ht, hs⟩
  · exact .inl (advance_of_step_next ht ▸ hs)
  · exact .inl hs
  · obtain ⟨hl, hcommits⟩ := step_consuming_commits htr ht hs
    obtain ⟨hmode, hseconds⟩ := h.values 0 (Nat.succ_pos n) hl
    have hmem : (⟨.mainLoop, encode (.render mv')⟩ : TraceItem) ∈ s.trace.take (n + 1) := by simp [htr]
    obtain rfl := h.samples _ hmem mv' (decode_encode _)
    obtain ⟨-, -, hk, hi, -⟩ := hs
    rw [advance_of_step_next ht, ← hmode, ← hseconds]
    exact .inr ⟨hk, hi, hcommits⟩

/-- The rest of the stretch is one. -/
theorem tail (h : SteadyRenders mode seconds mv (n + 1) s) : SteadyRenders mode seconds mv n (advance s) where
  systemTrace := by
    rcases h.advance_cases with ⟨hk, -⟩ | ⟨hk, -⟩ <;> exact hk.trans h.systemTrace
  values := fun k hk => h.values (k + 1) (Nat.succ_lt_succ hk)
  samples := fun item hmem => h.samples item (by
    rcases advance_trace s with ht | ⟨head, ht⟩
    · rw [ht] at hmem
      exact (List.take_subset_take_left _ (Nat.le_succ n)) hmem
    · rw [ht, List.take_succ_cons]
      exact List.mem_cons_of_mem _ hmem)

/-- The stretch commits the words of the positions in turn from the one it starts at. -/
theorem commits_eq (h : SteadyRenders mode seconds mv n s) : ∃ k, (advanceN n s).commits =
    s.commits ++ (positionsFrom s.idx k).map fun p => ofBits (displayWord s.params mode seconds mv.toNat p) := by
  induction n generalizing s with
  | zero => exact ⟨0, (List.append_nil _).symm⟩
  | succ n ih =>
    obtain ⟨k, hk⟩ := ih h.tail
    rw [advance_params] at hk
    rcases h.advance_cases with ⟨-, hi, hc⟩ | ⟨-, hi, hc⟩ <;> rw [hi, hc] at hk
    · exact ⟨k, hk⟩
    · exact ⟨k + 1, by rw [advanceN, hk, List.append_assoc]; rfl⟩

end SteadyRenders

/-! ### Runs that do not stop -/

/-- `n` steps from `s` run to `t` with no fault and no refusal. -/
def RunsTo (n : Nat) (s t : State) : Prop := Host.Core.run Sys2Proof.core n s = .next t

theorem RunsTo.refl (s : State) : RunsTo 0 s s := rfl

theorem core_run_succ_iff (M : Host.Core) (n : Nat) (s u : M.State) :
    M.run (n + 1) s = .next u ↔ ∃ t, M.step s = .next t ∧ M.run n t = .next u := by
  rw [Host.Core.run]
  cases M.step s <;> simp

theorem runsTo_succ_iff (n : Nat) (s u : State) : RunsTo (n + 1) s u ↔ ∃ t, step s = .next t ∧ RunsTo n t u :=
  core_run_succ_iff Sys2Proof.core n s u

theorem RunsTo.cons {n : Nat} {s t u : State} (h : step s = .next t) (hn : RunsTo n t u) : RunsTo (n + 1) s u :=
  (runsTo_succ_iff n s u).mpr ⟨t, h, hn⟩

theorem RunsTo.trans {a b : Nat} {s t u : State} (h : RunsTo a s t) (h' : RunsTo b t u) : RunsTo (a + b) s u := by
  induction a generalizing s with
  | zero =>
    cases h
    rwa [Nat.zero_add]
  | succ a ih =>
    obtain ⟨v, hv, hn⟩ := (runsTo_succ_iff a s t).mp h
    rw [Nat.succ_add]
    exact .cons hv (ih hn)

/-- An operation's own word runs it, where its trace kind and its phase are those of the state (30_encoding.md R80 to R82). -/
theorem step_itemOf {s t : State} {i : Instr} {rest : List TraceItem} (he : exec i (setTrace rest s) = .next t)
    (ht : s.trace = itemOf i :: rest) (hwf : s.params.wf = true) (hk : s.traceKind = i.traceKind)
    (hp : ∀ l, i.phase = some l → s.lphase = l) : step s = .next t :=
  (step_eq_exec hwf ht (decode_encode i) hk hp).trans he

/-- A poll without a falling edge of the reset button (43_environment.md R182). -/
theorem exec_poll_no_edge {r : Bit} {s : State} (h : resetEdge s.prevReset r = false) (m : Bit) :
    exec (.poll r m) s = .next (setPhase .atRender (setMode (modeOfLevel m) (setPrevReset r s))) := by
  rw [exec, execPoll, h]
  rfl

theorem resetEdge_self (r : Bit) : resetEdge r r = false := by cases r <;> rfl

/-- The main loop is about to poll a reset button that makes no edge, at these parameters and this count. -/
structure DigitReady (P : Params) (r : Bit) (seconds : Nat) (s : State) : Prop where
  params : s.params = P
  systemTrace : s.traceKind = .system
  phase : s.lphase = .atPoll
  clockLow : s.clock = false
  count : s.seconds = seconds
  noEdge : resetEdge s.prevReset r = false

/-- The refresh, poll and render of one digit commit the word of its position (42_tdm_scheduler.md R157). -/
theorem DigitReady.run_digit {P : Params} {r m : Bit} {mv : Bits16} {seconds : Nat} {s : State} {rest : List TraceItem}
    (h : DigitReady P r seconds s) (hwf : P.wf = true) (hs : seconds ≤ 5999) (hm : mv.toNat ≤ 9999)
    (ht : s.trace = traceOf (digitOps r m mv) ++ rest) :
    ∃ t, RunsTo 3 s t ∧ DigitReady P r seconds t ∧ t.idx = s.idx + 1 ∧ t.pending = false ∧ t.trace = rest ∧
      t.commits = s.commits ++ [ofBits (displayWord P (modeOfLevel m) seconds mv.toNat s.idx)] := by
  obtain ⟨rfl, hk, hl, hc, rfl, hr⟩ := h
  have h1 := step_itemOf (s := s) (i := .refresh) rfl ht hwf hk (fun _ hp => nomatch hp)
  have h2 := step_itemOf (s := setPending (setTrace (itemOf (.poll r m) :: itemOf (.render mv) :: rest) s))
    (exec_poll_no_edge (s := setTrace _ (setPending (setTrace _ s))) hr m) rfl hwf hk (fun _ hp => hl.trans (Option.some.inj hp))
  have h3 := step_itemOf (s := setPhase .atRender (setMode (modeOfLevel m) (setPrevReset r
    (setTrace (itemOf (.render mv) :: rest) (setPending s))))) (exec_render_displayWord hm hs rfl hc) rfl hwf hk
      (fun _ hp => Option.some.inj hp)
  exact ⟨_, .cons h1 (.cons h2 (.cons h3 (.refl _))), ⟨rfl, hk, rfl, rfl, rfl, resetEdge_self r⟩, rfl, rfl, rfl, rfl⟩

end Sys2Proof.Machine

section
open Sys2Proof Sys2Proof.Machine

/-- Settles O31: the stretch commits the positions in turn from 0, and four of them are the frame. -/
theorem frameWordsUnderEveryInterleaving : Obligations.FrameWordsUnderEveryInterleaving := by
  intro s n mode seconds mv hk _ hidx hs hm hvalues hsamples
  refine ⟨displayWord s.params mode seconds mv.toNat, displayWord_shows s.params mode hs hm, fun hlen => ?_⟩
  obtain ⟨k, hcommits⟩ := SteadyRenders.commits_eq ⟨hk, hvalues, hsamples⟩
  obtain rfl : k = 4 := by simpa [hcommits] using hlen
  rw [hcommits, hidx, positionsFrom_zero_four]
  rfl

/-- Settles O32: four digits, each leaving the loop ready for the next. -/
theorem frameCommitsFourPositions : Obligations.FrameCommitsFourPositions := by
  intro s r m mv rest hwf hk hl hidx hc hs hm hr ht
  have h0 : DigitReady s.params r s.seconds s := ⟨rfl, hk, hl, hc, rfl, hr⟩
  simp only [frameOps, traceOf, List.map_append, List.append_assoc] at ht
  obtain ⟨s1, hr1, h1, hi1, -, ht1, hc1⟩ := h0.run_digit hwf hs hm ht
  obtain ⟨s2, hr2, h2, hi2, -, ht2, hc2⟩ := h1.run_digit hwf hs hm ht1
  obtain ⟨s3, hr3, h3, hi3, -, ht3, hc3⟩ := h2.run_digit hwf hs hm ht2
  obtain ⟨s4, hr4, h4, hi4, hp4, ht4, hc4⟩ := h3.run_digit hwf hs hm ht3
  rw [hidx] at hi1 hc1
  rw [hi1] at hi2 hc2
  rw [hi2] at hi3 hc3
  rw [hi3] at hi4 hc4
  refine ⟨s4, displayWord s.params (modeOfLevel m) s.seconds mv.toNat, ((hr1.trans hr2).trans hr3).trans hr4, ?_, hi4, hp4,
    h4.count, ht4, displayWord_shows s.params _ hs hm⟩
  rw [hc4, hc3, hc2, hc1]
  simp

end

/-! A reset button held over two polls (43_environment.md R182): between the polls nothing writes the remembered level, so the
second poll sees no edge. -/

namespace Sys2Proof.Machine

/-! ### The remembered level -/

theorem runOps_cons_next {i : Instr} {ops : List Instr} {s t : State} (h : runOps (i :: ops) s = .next t) :
    ∃ u, exec i s = .next u ∧ runOps ops u = .next t := by
  rw [runOps] at h
  cases hi : exec i s with
  | next u => exact ⟨u, rfl, by simpa [hi] using h⟩
  | fault f => simp [hi] at h
  | refused r => simp [hi] at h

/-- Only a poll writes `prevReset` (10_state.md R34). -/
theorem runOps_prevReset {ops : List Instr} (hops : ∀ i ∈ ops, ∀ r l, i ≠ .poll r l) {s t : State}
    (h : runOps ops s = .next t) : t.prevReset = s.prevReset := by
  induction ops generalizing s with
  | nil => cases h; rfl
  | cons i ops ih =>
    obtain ⟨u, hu, ht⟩ := runOps_cons_next h
    obtain ⟨-, -, -, -, -, -, -, -, -, -, hw, -⟩ := writersOfEachElement i s u hu
    have hus : u.prevReset = s.prevReset := by_contra fun hne => by
      obtain ⟨r, l, hi⟩ := hw hne
      exact hops i (List.mem_cons_self ..) r l hi
    exact (ih (fun j hj => hops j (List.mem_cons_of_mem _ hj)) ht).trans hus

/-- A poll of a button still held resets nothing (43_environment.md R182). -/
theorem exec_poll_held {s : State} (h : s.prevReset = false) (m : Bit) :
    exec (.poll false m) s = .next (setPhase .atRender (setMode (modeOfLevel m) s)) := by
  have hs : setPrevReset false s = s := h ▸ rfl
  rw [exec_poll_no_edge (h ▸ resetEdge_self false), hs]

/-! ### From one poll to the next -/

theorem tickSeconds_eq_mod {n : Nat} (h : n ≤ 5999) : tickSeconds n = (n + 1) % 6000 := by
  rw [tickSeconds_eq]
  split <;> omega

/-- An interrupt adds its tick, if it is one, to the count modulo 6000 (43_environment.md R180). -/
theorem exec_irq_count {i : Instr} (hi : i = .refresh ∨ i = .sectick) {s : State} (h : s.seconds ≤ 5999) :
    ∃ p, exec i s = .next (setIrq p ((s.seconds + [i].count .sectick) % 6000) s) := by
  rcases hi with rfl | rfl
  · have hc : (s.seconds + [Instr.refresh].count .sectick) % 6000 = s.seconds := Nat.mod_eq_of_lt (Nat.lt_succ_of_le h)
    exact ⟨true, by rw [hc]; rfl⟩
  · have hc : (s.seconds + [Instr.sectick].count .sectick) % 6000 = tickSeconds s.seconds := (tickSeconds_eq_mod h).symm
    exact ⟨s.pending, by rw [hc]; rfl⟩

/-- The reset button was down at the last poll, and the main loop stands at `l` with the count `n` and the trace `items`. -/
structure HeldAt (P : Params) (l : LPhase) (n : Nat) (items : List TraceItem) (s : State) : Prop where
  params : s.params = P
  systemTrace : s.traceKind = .system
  phase : s.lphase = l
  clockLow : s.clock = false
  count : s.seconds = n
  held : s.prevReset = false
  trace : s.trace = items

/-- The first poll of a button that is down clears the count on an edge and remembers the level (43_environment.md R182). -/
theorem step_poll_down {s : State} {m : Bit} {rest : List TraceItem} (hwf : s.params.wf = true)
    (hk : s.traceKind = .system) (hl : s.lphase = .atPoll) (hc : s.clock = false)
    (ht : s.trace = itemOf (.poll false m) :: rest) :
    ∃ t, step s = .next t ∧ HeldAt s.params .atRender (if s.prevReset then 0 else s.seconds) rest t := by
  have hcount : (if s.prevReset = true ∧ false = false then 0 else s.seconds) = if s.prevReset then 0 else s.seconds := by
    simp
  have hstep := step_itemOf (s := s) (exec_poll false m (setTrace rest s)) ht hwf hk
    fun _ hp => hl.trans (Option.some.inj hp)
  exact ⟨_, hstep, rfl, hk, rfl, hc, hcount, rfl, rfl⟩

section
variable {P : Params} {l : LPhase} {n : Nat} {s : State} {rest : List TraceItem} (hwf : P.wf = true) (hn : n ≤ 5999)
include hwf hn

/-- Interrupts only move the count (60_exceptions.md R210). -/
theorem HeldAt.run_irqs {ops : List Instr} (hops : ∀ i ∈ ops, i = .refresh ∨ i = .sectick)
    (h : HeldAt P l n (traceOf ops ++ rest) s) :
    ∃ t, RunsTo ops.length s t ∧ HeldAt P l ((n + ops.count .sectick) % 6000) rest t := by
  induction ops generalizing s n with
  | nil => exact ⟨s, .refl s, by rwa [List.count_nil, Nat.add_zero, Nat.mod_eq_of_lt (Nat.lt_succ_of_le hn)]⟩
  | cons i ops ih =>
    obtain ⟨rfl, hk, hl, hc, rfl, hh, ht⟩ := h
    have hi := hops i (List.mem_cons_self ..)
    obtain ⟨p, he⟩ := exec_irq_count hi (s := setTrace (traceOf ops ++ rest) s) hn
    have hstep := step_itemOf (s := s) he ht hwf (by rcases hi with rfl | rfl <;> exact hk)
      (fun _ hp => by rcases hi with rfl | rfl <;> cases hp)
    have hat : HeldAt s.params l ((s.seconds + [i].count .sectick) % 6000) (traceOf ops ++ rest)
        (setIrq p ((s.seconds + [i].count .sectick) % 6000) (setTrace (traceOf ops ++ rest) s)) :=
      ⟨rfl, hk, hl, hc, rfl, hh, rfl⟩
    obtain ⟨t, hrun, hat'⟩ := ih (Nat.le_of_lt_succ (Nat.mod_lt _ (by decide)))
      (fun j hj => hops j (List.mem_cons_of_mem _ hj)) hat
    refine ⟨t, .cons hstep hrun, ?_⟩
    rw [← List.singleton_append, List.count_append, ← Nat.add_assoc, ← Nat.mod_add_mod]
    exact hat'

/-- A render brings the loop back to AtPoll, whether or not it consumes a refresh (42_tdm_scheduler.md R152, R160). -/
theorem HeldAt.step_render {mv : Bits16} (hm : mv.toNat ≤ 9999) (h : HeldAt P .atRender n (itemOf (.render mv) :: rest) s) :
    ∃ t, step s = .next t ∧ HeldAt P .atPoll n rest t := by
  obtain ⟨rfl, hk, hl, hc, rfl, hh, ht⟩ := h
  have hphase : ∀ l, (Instr.render mv).phase = some l → s.lphase = l := fun _ hp => hl.trans (Option.some.inj hp)
  cases hp : s.pending
  · have hidle := step_itemOf (renderIdleChangesOnlyPhase mv (setTrace rest s) hm hn hp) ht hwf hk hphase
    exact ⟨_, hidle, rfl, hk, rfl, hc, rfl, hh, rfl⟩
  · have hdigit := step_itemOf (exec_render_displayWord (s := setTrace rest s) hm hn hp hc) ht hwf hk hphase
    exact ⟨_, hdigit, rfl, hk, rfl, rfl, rfl, hh, rfl⟩

end

end Sys2Proof.Machine

section
open Sys2Proof Sys2Proof.Machine

/-- Settles O36: the first poll remembers the level 0, and the second finds it. -/
theorem heldResetButtonResetsOnce : Obligations.HeldResetButtonResetsOnce := by
  refine ⟨fun m m' ops s t hops h => ?_, fun m m' mv before after s rest hirqs hwf hk hl hc hs hm ht => ?_⟩
  · obtain ⟨u, hu, ht⟩ := runOps_cons_next h
    cases (exec_poll false m s).symm.trans hu
    exact exec_poll_held (runOps_prevReset hops ht) m'
  have hwords : traceOf (.poll false m :: (before ++ .render mv :: (after ++ [.poll false m']))) ++ rest =
      itemOf (.poll false m) :: (traceOf before ++ itemOf (.render mv) :: (traceOf after ++ itemOf (.poll false m') :: rest)) := by
    simp [traceOf]
  obtain ⟨s1, h1, hat1⟩ := step_poll_down hwf hk hl hc (ht.trans hwords)
  have hs1 : (if s.prevReset then 0 else s.seconds) ≤ 5999 := by split <;> omega
  obtain ⟨s2, h2, hat2⟩ := hat1.run_irqs hwf hs1 fun i hi => hirqs i (List.mem_append_left _ hi)
  have hs2 := Nat.le_of_lt_succ (Nat.mod_lt ((if s.prevReset then 0 else s.seconds) + before.count .sectick)
    (show 0 < 6000 by decide))
  obtain ⟨s3, h3, hat3⟩ := hat2.step_render hwf hs2 hm
  obtain ⟨t, h4, hat4⟩ := hat3.run_irqs hwf hs2 fun i hi => hirqs i (List.mem_append_right _ hi)
  obtain ⟨hP, hk4, hl4, -, hcount, hheld, ht4⟩ := hat4
  refine ⟨t, ?run, ?count, hheld, ?last⟩
  case run =>
    have hrun := (RunsTo.cons h1 h2).trans (.cons h3 h4)
    have hlen : before.length + 1 + (after.length + 1) = before.length + after.length + 2 := by omega
    rwa [hlen] at hrun
  case count => rw [hcount, Nat.mod_add_mod, List.count_append, Nat.add_assoc]
  case last =>
    exact step_itemOf (exec_poll_held (s := setTrace rest t) hheld m') ht4 (hP ▸ hwf) hk4
      fun _ hp => hl4.trans (Option.some.inj hp)

end
